-- ==== Sys2Proof/Word.lean ====
section
/-! DEFINITION. The words of the block: bytes of the stream, signed 16-bit values, and groups of four of them. -/

namespace Sys2Proof

/-- A byte of the input stream (rule R9). -/
abbrev Byte := BitVec 8

/-- A signed 16-bit value; its integer reading is `BitVec.toInt` (rules R10, R96). -/
abbrev S16 := BitVec 16

/-- Four signed 16-bit values: one channel's `history[0..3]` or `weights[0..3]` (rules R6 `LMS_LEN`, R21). -/
structure Taps where
  t0 : S16
  t1 : S16
  t2 : S16
  t3 : S16
  deriving DecidableEq, Repr, Inhabited

/-- Four raw bytes in stream order: the container tag, which is not an integer (rule R63). -/
structure Tag where
  b0 : Byte
  b1 : Byte
  b2 : Byte
  b3 : Byte
  deriving DecidableEq, Repr, Inhabited

end Sys2Proof
end

