-- ==== Sys2Proof/Config.lean ====
section
/-! DEFINITION. What an implementation fixes (rule R7), the constants of rule R6, and the free values: opaque constants
for what the spec calls unspecified (rules R25, R37, R71, R228). -/

namespace Sys2Proof

/-- How many samples the last slice group of a frame yields (rules R7, R126). -/
inductive TailMode where
  | truncate
  | full20
  deriving DecidableEq, Repr

/-- Byte order of a `PCM` word on a host bus narrower than 16 bits (rules R7, R65). -/
inductive ByteOrder where
  | big
  | little
  deriving DecidableEq, Repr

/-- The implementation parameters of rule R7. `none` is the unbounded default of a capacity. -/
structure Params where
  MAGIC : Tag
  TAIL_MODE : TailMode
  PCM_CAPACITY : Option Nat
  POS_WIDTH : Option Nat
  HOST_PCM_BYTE_ORDER : ByteOrder
  deriving DecidableEq, Repr

/-- Number of channel register sets (rule R7). -/
abbrev NCH_MAX : Nat := 255

namespace Config

/-- Rule R7's values. PRESUMED: the spec's own default of `MAGIC` comes from general knowledge. DESIGN CHOICE: the byte
order of a narrow host bus is OPEN in the spec. Log entry 6. Unsafe only for statements about these defaults. -/
def defaults : Params where
  MAGIC := ⟨0x71, 0x6F, 0x61, 0x66⟩
  TAIL_MODE := .truncate
  PCM_CAPACITY := none
  POS_WIDTH := none
  HOST_PCM_BYTE_ORDER := .big

/-- Samples per slice (rule R6 `SLICE_LEN`). -/
abbrev SLICE_LEN : Nat := 20
/-- Divisor of the frame count law (rule R6 `FRAME_LEN`). -/
abbrev FRAME_LEN : Nat := 5120
/-- Right shift of the prediction sum (rule R6 `PRED_SHIFT`). -/
abbrev PRED_SHIFT : Nat := 13
/-- Right shift of the residual in the weight update (rule R6 `DELTA_SHIFT`). -/
abbrev DELTA_SHIFT : Nat := 4
/-- Bounds of a reconstructed sample (rule R6 `S_MIN`). -/
abbrev S_MIN : Int := -32768
/-- Bounds of a reconstructed sample (rule R6 `S_MAX`). -/
abbrev S_MAX : Int := 32767
/-- Unit lengths in bytes (rule R6). -/
abbrev CHDR_LEN : Nat := 8
abbrev FHDR_LEN : Nat := 8
abbrev LMS_BYTES : Nat := 16
abbrev SLC_LEN : Nat := 8

end Config

/-- Which unspecified value a free value stands for, so that two of them are never tied to each other. -/
inductive FreeSlot where
  | FI | SI | TOTAL | NFRAMES | CHANNELS | RATE | FSAMPLES | FSIZE | NSLICES
  | readFLAGS | readCHANNELS | readRATE | readTOTAL | readPCM | readPCMByte
  deriving DecidableEq, Repr

/-- FREE VALUE of `w` bits for one slot at one draw; no body, so no proof can rest on it (log entries 8 and 9). -/
opaque Config.freeBits (slot : FreeSlot) (draw w : Nat) : BitVec w

/-- FREE VALUE: `POS` after a failure other than `ChannelCountMismatch` (rules R25, R228; log entry 8). -/
opaque Config.freePOS (draw : Nat) : Nat

/-- FREE VALUE: a host read of `OUTLEN` while `STATUS = BUSY` (rule R37; log entry 9). -/
opaque Config.freeOUTLEN (draw : Nat) : Nat

/-- FREE VALUE: `CI` after a failure (rule R228; log entry 8). -/
opaque Config.freeCI (draw : Nat) : Fin NCH_MAX

/-- FREE VALUE: the history registers after a failure (rule R228; log entry 8). -/
opaque Config.freeH (draw : Nat) : Vector Taps NCH_MAX

/-- FREE VALUE: the weight registers after a failure (rule R228; log entry 8). -/
opaque Config.freeW (draw : Nat) : Vector Taps NCH_MAX

end Sys2Proof
end

