-- ==== Sys2Proof/Syntax.lean ====
section
/-! DEFINITION. The sequencer's phases, the operations of the block (rule R90), and what the block fetches them from. -/

namespace Sys2Proof

/-- The phase `PH`: which operation the next step performs (rule R24). -/
inductive Phase where
  | idle
  | chdr
  | fhdr
  | lms
  | slc
  | asm
  | done
  | failed
  deriving DecidableEq, Repr

/-- One field of a slice that drives the datapath: the scale-factor index or one residual code (rules R94, R104). -/
inductive SubField where
  | sfi (v : BitVec 4)
  | code (q : BitVec 3)
  deriving DecidableEq, Repr

/-- The operations of rule R90, one constructor per row of spec/opcode_table.json. A stream unit carries its fields
(rules R91 to R94); a scale-factor code, a residual code, ASM and START carry nothing more than which one they are. -/
inductive Instr where
  | chdr (magic : Tag) (total : BitVec 32)
  | fhdr (channels : BitVec 8) (rate : BitVec 24) (samples size : BitVec 16)
  | lms (history weights : Taps)
  | slc (sfi : BitVec 4) (codes : List (BitVec 3))
  | sf0 | sf1 | sf2 | sf3 | sf4 | sf5 | sf6 | sf7
  | sf8 | sf9 | sf10 | sf11 | sf12 | sf13 | sf14 | sf15
  | q0 | q1 | q2 | q3 | q4 | q5 | q6 | q7
  | asm
  | start
  deriving DecidableEq, Repr

/-- What an operation is read from. The kind of a unit is the phase, never its bits (rule R102). -/
inductive Fetched where
  | stream (ph : Phase) (bytes : List Byte)
  | field (f : SubField)
  | implicit
  | command (b : Byte)
  deriving DecidableEq, Repr

/-- Why the decoder reads no operation. -/
inductive DecodeError where
  /-- The phase consumes no stream unit (rule R123: IDLE, ASM, DONE, FAILED). -/
  | noUnitInPhase
  /-- The bytes are not exactly as many as the unit has (rule R90). -/
  | wrongLength
  /-- A reserved value of `CMD` (rule R105). -/
  | reservedCommand
  deriving DecidableEq, Repr

end Sys2Proof
end

