-- ==== Sys2Proof/Machine/State.lean ====
section
/-! DEFINITION. The machine's state as plain data, the reasons a run can stop, and the state after reset. -/

namespace Sys2Proof
namespace Machine

/-- `STATUS` (rule R26). -/
inductive Status where
  | idle
  | busy
  | done
  | failed
  deriving DecidableEq, Repr

/-- `ERR`: no failure, or which failure ended the decode (rules R27, R221). -/
inductive ErrCode where
  | none
  | malformedContainer
  | truncatedStream
  | channelCountMismatch
  | channelLengthMismatch
  | capacityExceeded
  deriving DecidableEq, Repr

/-- The registers numbered 0 to 7 (rule R37). -/
inductive HostReg where
  | CMD | STATUS | ERR | FLAGS | CHANNELS | RATE | OUTLEN | TOTAL
  deriving DecidableEq, Repr

/-- One move of the host's script (rules R210 to R215). DESIGN CHOICE, log entry 4: the script is how the model says
which of the two agents moves next. -/
inductive HostEvent where
  /-- The host does nothing: the sequencer's turn. -/
  | idle
  /-- A write of `CMD` (rule R105). -/
  | writeCmd (b : Byte)
  /-- The host offers the next bytes of `IN` (rule R214). -/
  | offer (bytes : List Byte)
  /-- The host signals the end of the stream (rule R214). -/
  | endStream
  /-- The `RESET` input (rule R215). -/
  | reset
  /-- A read of a numbered register (rule R212). -/
  | readReg (r : HostReg)
  /-- A read of `PCM[k]` (rule R213). -/
  | readPcm (k : Nat)
  /-- A read of one byte of `PCM[k]` on a bus narrower than 16 bits: the byte at the lower address, or the other one
  (rule R65). -/
  | readPcmByte (k : Nat) (upper : Bool)
  deriving DecidableEq, Repr

/-- What a host read returned. -/
inductive Reply where
  | reg (r : HostReg) (value : Nat)
  | pcm (k : Nat) (value : S16)
  | pcmByte (k : Nat) (upper : Bool) (value : Byte)
  deriving DecidableEq, Repr

/-- The input stream: (offset, byte) pairs, offsets rising from 0 with no hole (rules R60, R214). An offset that is not
listed holds no byte yet: that is what an unlisted address reads as. -/
abbrev Memory := List Host.Cell

/-- The canonical form of the input stream. Every listed offset has a byte and no unlisted one has, so no entry equals
what an unlisted offset reads as. -/
def Memory.wf (m : Memory) : Bool := m.map Prod.fst == List.range m.length

/-- The whole state: the spec's own (rule R20), the inputs and parameters the spec makes arguments of the step
(rules R7, R44, R60), and the model's own bookkeeping (log entries 3, 4, 8, 9, 10). -/
structure State where
  /-- Phase (rule R24). -/
  PH : Phase
  /-- Frame index (rule R24). -/
  FI : Nat
  /-- Slice group index (rule R24). -/
  SI : Nat
  /-- Channel index (rule R24). -/
  CI : Fin NCH_MAX
  /-- Stream position (rules R24, R25). -/
  POS : Nat
  /-- Status register (rule R26). -/
  STATUS : Status
  /-- Failure code (rule R27). -/
  ERR : ErrCode
  /-- Sticky prediction overflow flag, bit 0 of `FLAGS` (rule R28). -/
  POVF : Bool
  /-- Sticky weight overflow flag, bit 1 of `FLAGS` (rule R28). -/
  WOVF : Bool
  /-- Total sample count (rule R29). -/
  TOTAL : BitVec 32
  /-- Frame count (rule R30). -/
  NFRAMES : Nat
  /-- Channel count (rule R31). -/
  CHANNELS : BitVec 8
  /-- Sample rate, bits 31:24 zero (rule R32). -/
  RATE : BitVec 32
  /-- Samples per channel of the current frame (rule R33). -/
  FSAMPLES : BitVec 16
  /-- Declared byte size of the current frame (rule R34). -/
  FSIZE : BitVec 16
  /-- Slice groups of the current frame (rule R35). -/
  NSLICES : Nat
  /-- Number of words in `PCM` (rule R36). -/
  OUTLEN : Nat
  /-- History registers `H[c][0..3]` (rule R21). -/
  H : Vector Taps NCH_MAX
  /-- Weight registers `W[c][0..3]` (rule R21). -/
  W : Vector Taps NCH_MAX
  /-- Sample buffers, oldest sample first (rule R70). -/
  CHBUF : Vector (List S16) NCH_MAX
  /-- Output memory (rule R71). -/
  PCM : List S16
  /-- Input stream offered so far (rule R60). -/
  IN : Memory
  /-- The host has signalled the end of the stream (rules R62, R214). -/
  EOS : Bool
  /-- Implementation parameters (rule R7); no step changes them. -/
  CFG : Params
  /-- MODEL's own: the scale factor inside an SLC step (rule R38). -/
  SF : BitVec 12
  /-- MODEL's own: the fields an SLC step has still to run (rule R38). -/
  PEND : List SubField
  /-- MODEL's own: what the host does next. -/
  HOST : List HostEvent
  /-- MODEL's own: what the host's reads returned, newest first. -/
  REPLIES : List Reply
  /-- MODEL's own: how many groups of free values have been drawn. -/
  DRAWS : Nat
  deriving DecidableEq, Repr

/-- Why the machine stops. -/
inductive Fault where
  /-- The host read register 0, which is write-only (rule R37). Raised by the host's register read. Safe: the model
  stops where the spec forbids the access. -/
  | writeOnlyRead
  deriving DecidableEq, Repr

/-- What the model gives no meaning to. -/
inductive Refusal where
  /-- An instruction without a meaning; no arm answers it. Safe. -/
  | notModelled (mnemonic : String)
  /-- The host offered bytes after it had signalled the end of the stream, against its duties (rule R214; U10 calls
  such a host outside the model). Raised by the host's offer. Safe. -/
  | inputAfterEnd
  /-- A fetched word the decoder rejects. `fetch` never gives one (`Laws`), so no run meets it. Safe. -/
  | undecoded (e : DecodeError)
  deriving DecidableEq, Repr

/-- The machine right after reset (rules R42, R250). `PH`, `STATUS`, `ERR`, the flags, `OUTLEN`, `PCM` and `CHBUF` as the
spec says; DESIGN CHOICE, log entry 7, unsafe: the registers rule R42 calls unspecified hold zero. Parameters: log
entry 6. The model's own fields: log entries 3, 4, 8, 9, 10. -/
def State.reset : State where
  PH := .idle
  FI := 0
  SI := 0
  CI := 0
  POS := 0
  STATUS := .idle
  ERR := .none
  POVF := false
  WOVF := false
  TOTAL := 0
  NFRAMES := 0
  CHANNELS := 0
  RATE := 0
  FSAMPLES := 0
  FSIZE := 0
  NSLICES := 0
  OUTLEN := 0
  H := Vector.replicate NCH_MAX ⟨0, 0, 0, 0⟩
  W := Vector.replicate NCH_MAX ⟨0, 0, 0, 0⟩
  CHBUF := Vector.replicate NCH_MAX []
  PCM := []
  IN := []
  EOS := false
  CFG := Config.defaults
  SF := 0
  PEND := []
  HOST := []
  REPLIES := []
  DRAWS := 0

end Machine
end Sys2Proof
end

