-- ==== Sys2Proof/Machine/Operands.lean ====
section
/-! DEFINITION. The datapath on operands alone: the notation's arithmetic (rules R10 to R13), the two ROMs and the
residual contribution (rules R165 to R170), and the stages of SAMPLE (rules R181 to R186). No state is read here. -/

namespace Sys2Proof
namespace Machine

/-- `v >> k`: arithmetic shift, `floor(v / 2^k)` (rule R11). -/
def asr (v : Int) (k : Nat) : Int := v / (2 ^ k : Int)

/-- `clamp(v, lo, hi)` (rule R13). -/
def clamp (v lo hi : Int) : Int := if v < lo then lo else if hi < v then hi else v

/-- `wrap16(v)` (rule R10), as the bit pattern an `s16` register holds. -/
def wrap16 (v : Int) : S16 := BitVec.ofInt 16 v

/-- `SF_ROM` (rule R166). -/
def sfRom (v : BitVec 4) : BitVec 12 :=
  (#v[1, 7, 21, 45, 84, 138, 211, 304, 421, 562, 731, 928, 1157, 1419, 1715, 2048] : Vector (BitVec 12) 16)[v.toNat]'v.isLt

/-- `DQ_ROM`: four times the residual table (rules R167, R168). -/
def dqRom (q : BitVec 3) : Int :=
  (#v[3, -3, 10, -10, 18, -18, 28, -28] : Vector Int 8)[q.toNat]'q.isLt

/-- RESID in integers (rules R169, R170): the magnitude is rounded first, the sign applied afterwards. -/
def resid (sf : BitVec 12) (q : BitVec 3) : Int :=
  let m := sf.toNat * (dqRom q).natAbs
  let magnitude : Int := ((m + 2) >>> 2 : Nat)
  if dqRom q < 0 then -magnitude else magnitude

/-- `ACC`, the exact sum of the four products (rules R180, R181). -/
def predSum (h w : Taps) : Int :=
  h.t0.toInt * w.t0.toInt + h.t1.toInt * w.t1.toInt + h.t2.toInt * w.t2.toInt + h.t3.toInt * w.t3.toInt

/-- PREDICT (rule R181): the sum is shifted once. -/
def predict (h w : Taps) : Int := asr (predSum h w) Config.PRED_SHIFT

/-- RECON (rule R183). -/
def recon (p r : Int) : Int := clamp (p + r) Config.S_MIN Config.S_MAX

/-- DELTA (rule R184), from the residual contribution. -/
def delta (r : Int) : Int := asr r Config.DELTA_SHIFT

/-- The exact updated weight `u_j` of one slot; a zero history entry counts as non-negative (rule R185). -/
def weightSum (h w : S16) (d : Int) : Int := w.toInt + (if h.toInt < 0 then -d else d)

/-- WUPD (rule R185): each slot wraps to 16 bits. -/
def updateWeights (h w : Taps) (d : Int) : Taps :=
  ⟨wrap16 (weightSum h.t0 w.t0 d), wrap16 (weightSum h.t1 w.t1 d),
   wrap16 (weightSum h.t2 w.t2 d), wrap16 (weightSum h.t3 w.t3 d)⟩

/-- HSHIFT (rule R186). -/
def shiftHistory (h : Taps) (sample : S16) : Taps := ⟨h.t1, h.t2, h.t3, sample⟩

/-- `n(SI)`: samples slice group `si` of a frame yields (rule R126). -/
def groupSize (mode : TailMode) (fsamples : BitVec 16) (si : Nat) : Nat :=
  match mode with
  | .truncate => min Config.SLICE_LEN (fsamples.toNat - Config.SLICE_LEN * si)
  | .full20 => Config.SLICE_LEN

/-- `NSLICES = (ns + 19) div 20` (rules R35, R126). -/
def sliceGroups (ns : BitVec 16) : Nat := (ns.toNat + 19) / Config.SLICE_LEN

/-- The frame count law (rule R122). -/
def frameCount (total : BitVec 32) : Nat := total.toNat / Config.FRAME_LEN + 1

/-- The interleave of equally long buffers (rule R202): one sample of each buffer in channel order, for every index. -/
def interleave (bufs : List (List S16)) (n : Nat) : List S16 :=
  (List.range n).flatMap fun k => bufs.filterMap fun b => b[k]?

/-- Numeric code of `STATUS` (rule R26). -/
def Status.code : Status → BitVec 2
  | .idle => 0
  | .busy => 1
  | .done => 2
  | .failed => 3

/-- Numeric code of `ERR` (rule R221). -/
def ErrCode.code : ErrCode → BitVec 3
  | .none => 0
  | .malformedContainer => 1
  | .truncatedStream => 2
  | .channelCountMismatch => 3
  | .channelLengthMismatch => 4
  | .capacityExceeded => 5

end Machine
end Sys2Proof
end

