-- ==== Sys2Proof/Machine/Flags.lean ====
section
/-! DEFINITION. The two sticky flags (rule R28): the events that set them and how they are kept. -/

namespace Sys2Proof
namespace Machine

/-- The prediction sum lies outside the signed 32-bit range (rule R182). -/
def povfEvent (acc : Int) : Bool := decide (acc < -2147483648) || decide (2147483647 < acc)

/-- One exact updated weight lies outside the signed 16-bit range (rule R185). -/
def weightLeaves (u : Int) : Bool := decide (u < -32768) || decide (32767 < u)

/-- At least one of the four updates leaves the signed 16-bit range (rules R28, R185). -/
def wovfEvent (h w : Taps) (d : Int) : Bool :=
  weightLeaves (weightSum h.t0 w.t0 d) || weightLeaves (weightSum h.t1 w.t1 d) ||
  weightLeaves (weightSum h.t2 w.t2 d) || weightLeaves (weightSum h.t3 w.t3 d)

/-- Sticky flags: an event sets, nothing but START and reset clears (rule R28). -/
def State.stickFlags (s : State) (p w : Bool) : State := { s with POVF := s.POVF || p, WOVF := s.WOVF || w }

/-- `FLAGS` as the host reads it: `POVF` is bit 0, `WOVF` bit 1 (rule R28). -/
def State.flagsWord (s : State) : BitVec 2 := BitVec.ofBool s.WOVF ++ BitVec.ofBool s.POVF

end Machine
end Sys2Proof
end

