-- ==== Sys2Proof/Machine/Ops.lean ====
section
/-! DEFINITION. The named operations over the input stream, the registers and the buffers; `raise`, the one way a failure
is entered (rule R228: there is no return from it, only START and RESET leave FAILED, rule R230); and `advance()`, the
block's only control transfer (rule R123). -/

namespace Sys2Proof
namespace Machine

/-- The byte at an offset of the stream; `none` where the host has offered none. -/
def Memory.read (m : Memory) (a : Nat) : Option Byte := m.lookup a

/-- The host offers one more byte: it takes the next offset (rule R214). -/
def Memory.offerByte (m : Memory) (b : Byte) : Memory := m ++ [(m.length, b)]

/-- The host offers bytes in order (rule R214). -/
def Memory.offer (m : Memory) (bs : List Byte) : Memory := bs.foldl Memory.offerByte m

/-- The `n` bytes from an offset on, when all of them are there. -/
def Memory.readRange (m : Memory) (a : Nat) : Nat → Option (List Byte)
  | 0 => some []
  | n + 1 =>
    match m.read a, m.readRange (a + 1) n with
    | some b, some bs => some (b :: bs)
    | _, _ => none

/-- What `ReadBytes` finds (rules R61, R62). -/
def State.readBytes (s : State) (n : Nat) : Option (List Byte) := s.IN.readRange s.POS n

/-- `POS` may move by `n`: always with the unbounded default; with a finite width only up to `2^POS_WIDTH - 1`
(rules R25, R238). -/
def State.posFits (s : State) (n : Nat) : Bool :=
  match s.CFG.POS_WIDTH with
  | none => true
  | some w => decide (s.POS + n < 2 ^ w)

/-- `POS <- POS + n` (rules R25, R61). -/
def State.consume (s : State) (n : Nat) : State := { s with POS := s.POS + n }

/-- `length(CHBUF[c])` summed over all channels. -/
def State.stored (s : State) : Nat := (s.CHBUF.toList.map List.length).sum

/-- `n` more samples stay within `PCM_CAPACITY` (rules R73, R238; log entry 11). -/
def State.samplesFit (s : State) (n : Nat) : Bool :=
  match s.CFG.PCM_CAPACITY with
  | none => true
  | some cap => decide (s.stored + n ≤ cap)

/-- `H[CI]` (rule R22). -/
def State.history (s : State) : Taps := s.H[s.CI]

/-- `W[CI]` (rule R22). -/
def State.weights (s : State) : Taps := s.W[s.CI]

/-- Write all eight registers of channel `CI`, and of no other channel (rule R22). -/
def State.setChannel (s : State) (h w : Taps) : State :=
  { s with H := s.H.set s.CI h, W := s.W.set s.CI w }

/-- `Append(CHBUF[CI], v)` (rule R70). -/
def State.append (s : State) (v : S16) : State :=
  { s with CHBUF := s.CHBUF.set s.CI (s.CHBUF[s.CI] ++ [v]) }

/-- The buffers of channels `0 .. CHANNELS-1`, in channel order. -/
def State.buffers (s : State) : List (List S16) := s.CHBUF.toList.take s.CHANNELS.toNat

/-- `n(SI)` of the slice group being decoded (rule R126). -/
def State.groupLen (s : State) : Nat := groupSize s.CFG.TAIL_MODE s.FSAMPLES s.SI

/-- FAILURE ENTRY, `raise X` (rule R228): `PH`, `STATUS` and `ERR` say so, the output is discarded, the flags keep their
values. Everything else holds an unspecified value: a free value within its register's width (log entry 8), but `POS` after
`ChannelCountMismatch`, which stays where the state given to `raise` has it (rules R25, R125). -/
def raise (x : ErrCode) (s : State) : State :=
  { s with
    PH := .failed
    STATUS := .failed
    ERR := x
    PCM := []
    OUTLEN := 0
    CHBUF := Vector.replicate NCH_MAX []
    POS := if x = .channelCountMismatch then s.POS else Config.freePOS s.DRAWS
    FI := (Config.freeBits .FI s.DRAWS 20).toNat
    SI := (Config.freeBits .SI s.DRAWS 12).toNat
    CI := Config.freeCI s.DRAWS
    TOTAL := Config.freeBits .TOTAL s.DRAWS 32
    NFRAMES := (Config.freeBits .NFRAMES s.DRAWS 20).toNat
    CHANNELS := Config.freeBits .CHANNELS s.DRAWS 8
    RATE := (Config.freeBits .RATE s.DRAWS 24).setWidth 32
    FSAMPLES := Config.freeBits .FSAMPLES s.DRAWS 16
    FSIZE := Config.freeBits .FSIZE s.DRAWS 16
    NSLICES := (Config.freeBits .NSLICES s.DRAWS 12).toNat
    H := Config.freeH s.DRAWS
    W := Config.freeW s.DRAWS
    SF := 0
    PEND := []
    DRAWS := s.DRAWS + 1 }

/-- `frame_end()` (rule R123). -/
def frameEnd (s : State) : State :=
  if s.FI + 1 < s.NFRAMES then { s with FI := s.FI + 1, PH := .fhdr } else { s with PH := .asm }

/-- `CI + 1`, for a channel that has a successor below `CHANNELS`. -/
def nextChannel (s : State) (h : s.CI.val + 1 < s.CHANNELS.toNat) : Fin NCH_MAX :=
  ⟨s.CI.val + 1, by have := s.CHANNELS.isLt; show s.CI.val + 1 < 255; omega⟩

/-- `advance()` (rule R123). No step is enabled in IDLE, DONE and FAILED, so nothing advances from them. -/
def advance (s : State) : State :=
  match s.PH with
  | .chdr => { s with FI := 0, PH := .fhdr }
  | .fhdr => if s.CHANNELS.toNat = 0 then frameEnd s else { s with CI := 0, PH := .lms }
  | .lms =>
    if h : s.CI.val + 1 < s.CHANNELS.toNat then { s with CI := nextChannel s h }
    else if s.NSLICES = 0 then frameEnd s
    else { s with SI := 0, CI := 0, PH := .slc }
  | .slc =>
    if h : s.CI.val + 1 < s.CHANNELS.toNat then { s with CI := nextChannel s h }
    else if s.SI + 1 < s.NSLICES then { s with SI := s.SI + 1, CI := 0 }
    else frameEnd s
  | .asm => { s with PH := .done }
  | .idle | .done | .failed => s

/-- SAMPLE on channel `CI` for one residual code, and the append of what it returns (rules R150, R180): everything is
computed from the registers as they were before the sub-step (rule R187). Total on every state (rule R180). -/
def sampleStep (q : BitVec 3) (s : State) : State :=
  let h := s.history
  let w := s.weights
  let r := resid s.SF q
  let d := delta r
  let sample := wrap16 (recon (predict h w) r)
  ((s.stickFlags (povfEvent (predSum h w)) (wovfEvent h w d)).setChannel
    (shiftHistory h sample) (updateWeights h w d)).append sample

/-- DQSF: the scale factor of the slice becomes the ROM's entry (rules R150, R165). -/
def latchScale (sfi : BitVec 4) (s : State) : State := { s with SF := sfRom sfi }

/-- The end of an SLC step: the datapath's temporaries do not survive it (rule R38), and the sequencer advances. -/
def endSlice (s : State) : State := advance { s with SF := 0, PEND := [] }

end Machine
end Sys2Proof
end

