-- ==== Sys2Proof/Machine/Assemble.lean ====
section
/-! DEFINITION. ASM, the output assembler (rules R200 to R206). -/

namespace Sys2Proof
namespace Machine

open Host (Outcome)

/-- The common length `N`; no channels have the length 0 (rules R200, R205). -/
def commonLength (bufs : List (List S16)) : Nat :=
  match bufs with
  | [] => 0
  | b :: _ => b.length

/-- Every buffer has the length of channel 0's (rule R201). -/
def lengthsAgree (bufs : List (List S16)) : Bool := bufs.all fun b => b.length == commonLength bufs

/-- ASM (rule R200): check the lengths, interleave, publish; `STATUS` is the last write of the decode. -/
def execAsm (s : State) : Outcome State Fault Refusal :=
  let bufs := s.buffers
  if lengthsAgree bufs then
    .next { advance { s with
        PCM := interleave bufs (commonLength bufs)
        OUTLEN := commonLength bufs * s.CHANNELS.toNat } with
      STATUS := .done }
  else .next (raise .channelLengthMismatch s)

end Machine
end Sys2Proof
end

