-- ==== Sys2Proof/Machine/Header.lean ====
section
/-! DEFINITION. The header units CHDR and FHDR (rules R121 to R128). The short read is met at the fetch (`Machine/Fetch`);
here all eight bytes of the unit are there. -/

namespace Sys2Proof
namespace Machine

open Host (Outcome)

/-- CHDR (rules R121, R122): the bytes are consumed, then the tag is compared byte for byte. -/
def execChdr (magic : Tag) (total : BitVec 32) (s : State) : Outcome State Fault Refusal :=
  if s.posFits Config.CHDR_LEN then
    let t := s.consume Config.CHDR_LEN
    if magic = s.CFG.MAGIC then .next (advance { t with TOTAL := total, NFRAMES := frameCount total })
    else .next (raise .malformedContainer t)
  else .next (raise .capacityExceeded s)

/-- The channel count a frame header leaves: frame 0 sets it, every later frame must repeat it (rules R124, R125). -/
def channelsAgree (channels : BitVec 8) (s : State) : Bool := s.FI == 0 || channels == s.CHANNELS

/-- FHDR (rules R124 to R126): a mismatching header is consumed but not latched. -/
def execFhdr (channels : BitVec 8) (rate : BitVec 24) (samples size : BitVec 16) (s : State) :
    Outcome State Fault Refusal :=
  if s.posFits Config.FHDR_LEN then
    let t := s.consume Config.FHDR_LEN
    if channelsAgree channels s then
      .next (advance { t with
        CHANNELS := channels
        RATE := rate.setWidth 32
        FSAMPLES := samples
        FSIZE := size
        NSLICES := sliceGroups samples })
    else .next (raise .channelCountMismatch t)
  else .next (raise .capacityExceeded s)

end Machine
end Sys2Proof
end

