-- ==== Sys2Proof/Machine/HostCmd.lean ====
section
/-! DEFINITION. The host's side: START (rules R210, R211), `RESET` (rule R215), the input port (rule R214) and the host's
reads (rules R212, R213). -/

namespace Sys2Proof
namespace Machine

open Host (Outcome)

/-- The state START establishes, and the input port bound to a new stream (rules R210, R251). `H`, `W` and the metadata
registers keep what they held. -/
def startDecode (s : State) : State :=
  { s with
    CHBUF := Vector.replicate NCH_MAX []
    PCM := []
    OUTLEN := 0
    ERR := .none
    POVF := false
    WOVF := false
    POS := 0
    FI := 0
    SI := 0
    CI := 0
    PH := .chdr
    STATUS := .busy
    IN := []
    EOS := false }

/-- START (rule R210); while `STATUS = BUSY` it is refused without a change of state (rule R211). -/
def execStart (s : State) : Outcome State Fault Refusal :=
  if s.STATUS = .busy then .next s else .next (startDecode s)

/-- `RESET` (rules R42, R215): the state after reset. The parameters, the host's script, what its reads returned and the
free values' counter are not the block's state and stay (log entry 14). -/
def resetBlock (s : State) : State :=
  { State.reset with CFG := s.CFG, HOST := s.HOST, REPLIES := s.REPLIES, DRAWS := s.DRAWS }

/-- The host's read returns a value the rules fix; nothing of the block changes (rule R212). -/
def replyKnown (s : State) (r : Reply) : State := { s with REPLIES := r :: s.REPLIES }

/-- The host's read returns a free value; the next one is drawn afresh (log entry 9). -/
def replyFree (s : State) (r : Reply) : State := { s with REPLIES := r :: s.REPLIES, DRAWS := s.DRAWS + 1 }

/-- A register read: its value while the "valid when" condition of rule R37 holds, an unspecified one otherwise
(rule R212). -/
def readWindow (r : HostReg) (valid : Bool) (value unspecified : Nat) (s : State) : State :=
  if valid then replyKnown s (.reg r value) else replyFree s (.reg r unspecified)

/-- `STATUS` is `DONE` or `FAILED` (rule R37); the line an implementation may drive (rule R231) is high exactly then. -/
def State.ended (s : State) : Bool := s.STATUS == .done || s.STATUS == .failed

/-- A read of a numbered register (rules R37, R212). `CMD` is write-only: the read is forbidden and stops (log entry 13). -/
def readReg (r : HostReg) (s : State) : Outcome State Fault Refusal :=
  match r with
  | .CMD => .fault .writeOnlyRead
  | .STATUS => .next (replyKnown s (.reg r s.STATUS.code.toNat))
  | .ERR => .next (replyKnown s (.reg r s.ERR.code.toNat))
  | .FLAGS => .next (readWindow r s.ended s.flagsWord.toNat (Config.freeBits .readFLAGS s.DRAWS 2).toNat s)
  | .CHANNELS =>
    .next (readWindow r (s.STATUS == .done) s.CHANNELS.toNat (Config.freeBits .readCHANNELS s.DRAWS 8).toNat s)
  | .RATE => .next (readWindow r (s.STATUS == .done) s.RATE.toNat (Config.freeBits .readRATE s.DRAWS 32).toNat s)
  | .OUTLEN => .next (readWindow r (s.STATUS != .busy) s.OUTLEN (Config.freeOUTLEN s.DRAWS) s)
  | .TOTAL => .next (readWindow r (s.STATUS == .done) s.TOTAL.toNat (Config.freeBits .readTOTAL s.DRAWS 32).toNat s)

/-- `PCM[k]` where the host may read it: while `STATUS = DONE` and `k < OUTLEN` (rules R71, R213). -/
def pcmReadable (k : Nat) (s : State) : Option S16 :=
  if s.STATUS = .done ∧ k < s.OUTLEN then s.PCM[k]? else none

/-- A PCM read (rule R213); an unspecified value outside the contract (log entry 9). -/
def readPcm (k : Nat) (s : State) : State :=
  match pcmReadable k s with
  | some v => replyKnown s (.pcm k v)
  | none => replyFree s (.pcm k (Config.freeBits .readPCM s.DRAWS 16))

/-- One byte of a PCM word in the parameter's byte order: `upper` is the byte at the higher bus address (rule R65). -/
def pcmByte (o : ByteOrder) (v : S16) (upper : Bool) : Byte :=
  match o, upper with
  | .big, false | .little, true => v.extractLsb' 8 8
  | .big, true | .little, false => v.extractLsb' 0 8

/-- A PCM read on a bus narrower than 16 bits (rules R65, R213). -/
def readPcmByte (k : Nat) (upper : Bool) (s : State) : State :=
  match pcmReadable k s with
  | some v => replyKnown s (.pcmByte k upper (pcmByte s.CFG.HOST_PCM_BYTE_ORDER v upper))
  | none => replyFree s (.pcmByte k upper (Config.freeBits .readPCMByte s.DRAWS 8))

/-- The host offers bytes (rule R214). After it has signalled the end of the stream it must not: refused, log entry 13. -/
def offerBytes (bs : List Byte) (s : State) : Outcome State Fault Refusal :=
  if s.EOS then .refused .inputAfterEnd else .next { s with IN := s.IN.offer bs }

/-- The host signals the end of the stream (rule R214). DESIGN CHOICE, log entry 19, unsafe: the spec is silent on a signal
given twice or while `STATUS` is not `BUSY`; the model accepts it in every state, and a repeat changes nothing. -/
def endStream (s : State) : State := { s with EOS := true }

end Machine
end Sys2Proof
end

