-- ==== Sys2Proof/Machine/Predictor.lean ====
section
/-! DEFINITION. The LMS unit: the predictor state load (rules R140 to R143). -/

namespace Sys2Proof
namespace Machine

open Host (Outcome)

/-- LMS (rules R140, R141): all eight registers of channel `CI` are replaced, whatever they held. -/
def execLms (history weights : Taps) (s : State) : Outcome State Fault Refusal :=
  if s.posFits Config.LMS_BYTES then .next (advance ((s.consume Config.LMS_BYTES).setChannel history weights))
  else .next (raise .capacityExceeded s)

end Machine
end Sys2Proof
end

