-- ==== Sys2Proof/Machine/Dequant.lean ====
section
/-! DEFINITION. The scale-factor codes SF0 to SF15 (rules R104, R165): each selects its entry of the ROM for the slice
being decoded. Inside an SLC step they run as its first sub-step (`Machine/Slice`; log entry 10). -/

namespace Sys2Proof
namespace Machine

open Host (Outcome)

/-- SF0: `SF = SF_ROM[0]` (rules R165, R166). -/
def execSf0 (s : State) : Outcome State Fault Refusal := .next (latchScale 0 s)

/-- SF1: `SF = SF_ROM[1]` (rules R165, R166). -/
def execSf1 (s : State) : Outcome State Fault Refusal := .next (latchScale 1 s)

/-- SF2: `SF = SF_ROM[2]` (rules R165, R166). -/
def execSf2 (s : State) : Outcome State Fault Refusal := .next (latchScale 2 s)

/-- SF3: `SF = SF_ROM[3]` (rules R165, R166). -/
def execSf3 (s : State) : Outcome State Fault Refusal := .next (latchScale 3 s)

/-- SF4: `SF = SF_ROM[4]` (rules R165, R166). -/
def execSf4 (s : State) : Outcome State Fault Refusal := .next (latchScale 4 s)

/-- SF5: `SF = SF_ROM[5]` (rules R165, R166). -/
def execSf5 (s : State) : Outcome State Fault Refusal := .next (latchScale 5 s)

/-- SF6: `SF = SF_ROM[6]` (rules R165, R166). -/
def execSf6 (s : State) : Outcome State Fault Refusal := .next (latchScale 6 s)

/-- SF7: `SF = SF_ROM[7]` (rules R165, R166). -/
def execSf7 (s : State) : Outcome State Fault Refusal := .next (latchScale 7 s)

/-- SF8: `SF = SF_ROM[8]` (rules R165, R166). -/
def execSf8 (s : State) : Outcome State Fault Refusal := .next (latchScale 8 s)

/-- SF9: `SF = SF_ROM[9]` (rules R165, R166). -/
def execSf9 (s : State) : Outcome State Fault Refusal := .next (latchScale 9 s)

/-- SF10: `SF = SF_ROM[10]` (rules R165, R166). -/
def execSf10 (s : State) : Outcome State Fault Refusal := .next (latchScale 10 s)

/-- SF11: `SF = SF_ROM[11]` (rules R165, R166). -/
def execSf11 (s : State) : Outcome State Fault Refusal := .next (latchScale 11 s)

/-- SF12: `SF = SF_ROM[12]` (rules R165, R166). -/
def execSf12 (s : State) : Outcome State Fault Refusal := .next (latchScale 12 s)

/-- SF13: `SF = SF_ROM[13]` (rules R165, R166). -/
def execSf13 (s : State) : Outcome State Fault Refusal := .next (latchScale 13 s)

/-- SF14: `SF = SF_ROM[14]` (rules R165, R166). -/
def execSf14 (s : State) : Outcome State Fault Refusal := .next (latchScale 14 s)

/-- SF15: `SF = SF_ROM[15]` (rules R165, R166). -/
def execSf15 (s : State) : Outcome State Fault Refusal := .next (latchScale 15 s)

end Machine
end Sys2Proof
end

