-- ==== Sys2Proof/Machine/Sample.lean ====
section
/-! DEFINITION. The residual codes Q0 to Q7 (rules R104, R167 to R170, R180): each dequantizes with the slice's scale
factor, runs one SAMPLE sub-step on channel `CI` and appends its sample. They are total (rule R180); the capacity of the
buffers is checked by the SLC step they belong to (rule R238; log entries 10 and 11). -/

namespace Sys2Proof
namespace Machine

open Host (Outcome)

/-- Q0: residual 0.75 (rules R167, R180). -/
def execQ0 (s : State) : Outcome State Fault Refusal := .next (sampleStep 0 s)

/-- Q1: residual -0.75 (rules R167, R180). -/
def execQ1 (s : State) : Outcome State Fault Refusal := .next (sampleStep 1 s)

/-- Q2: residual 2.5 (rules R167, R180). -/
def execQ2 (s : State) : Outcome State Fault Refusal := .next (sampleStep 2 s)

/-- Q3: residual -2.5 (rules R167, R180). -/
def execQ3 (s : State) : Outcome State Fault Refusal := .next (sampleStep 3 s)

/-- Q4: residual 4.5 (rules R167, R180). -/
def execQ4 (s : State) : Outcome State Fault Refusal := .next (sampleStep 4 s)

/-- Q5: residual -4.5 (rules R167, R180). -/
def execQ5 (s : State) : Outcome State Fault Refusal := .next (sampleStep 5 s)

/-- Q6: residual 7.0 (rules R167, R180). -/
def execQ6 (s : State) : Outcome State Fault Refusal := .next (sampleStep 6 s)

/-- Q7: residual -7.0 (rules R167, R180). -/
def execQ7 (s : State) : Outcome State Fault Refusal := .next (sampleStep 7 s)

end Machine
end Sys2Proof
end

