-- ==== Sys2Proof/Machine/Slice.lean ====
section
/-! DEFINITION. The SLC unit (rules R150 to R156): its scale-factor code and then its residual codes run in playback order,
each by its own meaning, all within one atomic step (rule R16). -/

namespace Sys2Proof
namespace Machine

open Host (Outcome)

/-- The meaning of a scale-factor index (rule R104). -/
def runSfi (v : BitVec 4) (s : State) : Outcome State Fault Refusal :=
  match v.toNat with
  | 0 => execSf0 s
  | 1 => execSf1 s
  | 2 => execSf2 s
  | 3 => execSf3 s
  | 4 => execSf4 s
  | 5 => execSf5 s
  | 6 => execSf6 s
  | 7 => execSf7 s
  | 8 => execSf8 s
  | 9 => execSf9 s
  | 10 => execSf10 s
  | 11 => execSf11 s
  | 12 => execSf12 s
  | 13 => execSf13 s
  | 14 => execSf14 s
  | _ => execSf15 s

/-- The meaning of a residual code (rule R104). -/
def runCode (q : BitVec 3) (s : State) : Outcome State Fault Refusal :=
  match q.toNat with
  | 0 => execQ0 s
  | 1 => execQ1 s
  | 2 => execQ2 s
  | 3 => execQ3 s
  | 4 => execQ4 s
  | 5 => execQ5 s
  | 6 => execQ6 s
  | _ => execQ7 s

/-- The meaning of one field of a slice. -/
def runField : SubField → State → Outcome State Fault Refusal
  | .sfi v, s => runSfi v s
  | .code q, s => runCode q s

/-- The fields run one after another, each on the state the one before it left (rule R188); then the sequencer
advances. -/
def runFields : List SubField → State → Outcome State Fault Refusal
  | [], s => .next (endSlice s)
  | f :: fs, s =>
    match runField f s with
    | .next t => runFields fs t
    | .fault r => .fault r
    | .refused r => .refused r

/-- The fields of a slice that drive the datapath: the index, then the codes that are decoded (rules R150, R154). -/
def sliceFields (sfi : BitVec 4) (codes : List (BitVec 3)) (n : Nat) : List SubField :=
  .sfi sfi :: (codes.take n).map .code

/-- SLC (rule R150). A step that would pass a finite capacity raises instead of appending anything (rules R73, R238);
`POS` is checked as the bytes are consumed, before the samples (log entries 11 and 12). -/
def execSlc (sfi : BitVec 4) (codes : List (BitVec 3)) (s : State) : Outcome State Fault Refusal :=
  if s.posFits Config.SLC_LEN && s.samplesFit (codes.take s.groupLen).length then
    runFields (sliceFields sfi codes s.groupLen) (s.consume Config.SLC_LEN)
  else .next (raise .capacityExceeded s)

end Machine
end Sys2Proof
end

