-- ==== Sys2Proof/Machine/Dispatch.lean ====
section
/-! DEFINITION. The dispatch: one arm per operation of rule R90. -/

namespace Sys2Proof
namespace Machine

def exec (i : Instr) (s : State) : Host.Outcome State Fault Refusal :=
  match i with
  | .chdr magic total => Sys2Proof.Machine.execChdr magic total s
  | .fhdr channels rate samples size => Sys2Proof.Machine.execFhdr channels rate samples size s
  | .lms history weights => Sys2Proof.Machine.execLms history weights s
  | .slc sfi codes => Sys2Proof.Machine.execSlc sfi codes s
  | .sf0 => Sys2Proof.Machine.execSf0 s
  | .sf1 => Sys2Proof.Machine.execSf1 s
  | .sf2 => Sys2Proof.Machine.execSf2 s
  | .sf3 => Sys2Proof.Machine.execSf3 s
  | .sf4 => Sys2Proof.Machine.execSf4 s
  | .sf5 => Sys2Proof.Machine.execSf5 s
  | .sf6 => Sys2Proof.Machine.execSf6 s
  | .sf7 => Sys2Proof.Machine.execSf7 s
  | .sf8 => Sys2Proof.Machine.execSf8 s
  | .sf9 => Sys2Proof.Machine.execSf9 s
  | .sf10 => Sys2Proof.Machine.execSf10 s
  | .sf11 => Sys2Proof.Machine.execSf11 s
  | .sf12 => Sys2Proof.Machine.execSf12 s
  | .sf13 => Sys2Proof.Machine.execSf13 s
  | .sf14 => Sys2Proof.Machine.execSf14 s
  | .sf15 => Sys2Proof.Machine.execSf15 s
  | .q0 => Sys2Proof.Machine.execQ0 s
  | .q1 => Sys2Proof.Machine.execQ1 s
  | .q2 => Sys2Proof.Machine.execQ2 s
  | .q3 => Sys2Proof.Machine.execQ3 s
  | .q4 => Sys2Proof.Machine.execQ4 s
  | .q5 => Sys2Proof.Machine.execQ5 s
  | .q6 => Sys2Proof.Machine.execQ6 s
  | .q7 => Sys2Proof.Machine.execQ7 s
  | .asm => Sys2Proof.Machine.execAsm s
  | .start => Sys2Proof.Machine.execStart s

end Machine
end Sys2Proof
end

