-- ==== Sys2Proof/WellFormed.lean ====
section
/-! DEFINITION. Well-formed operations. Every field but the list of residual codes has exactly the width its format
gives it by its type, and every value of that width is legal (rules R100, R172); so one check remains. -/

namespace Sys2Proof

/-- A slice carries exactly twenty residual codes (rules R94, R156). -/
def Instr.wellFormed : Instr → Bool
  | .slc _ codes => codes.length == Config.SLICE_LEN
  | .chdr _ _ | .fhdr _ _ _ _ | .lms _ _ => true
  | .sf0 | .sf1 | .sf2 | .sf3 | .sf4 | .sf5 | .sf6 | .sf7 => true
  | .sf8 | .sf9 | .sf10 | .sf11 | .sf12 | .sf13 | .sf14 | .sf15 => true
  | .q0 | .q1 | .q2 | .q3 | .q4 | .q5 | .q6 | .q7 => true
  | .asm | .start => true

end Sys2Proof
end

