-- ==== Sys2Proof/Decode.lean ====
section
/-! DEFINITION. Field assembly (rules R95 to R98), the decoder, total and rejecting by name (rule R102), the encoder
written from the same formats (rules R91 to R94), and the reading of the opcode table's own words. -/

namespace Sys2Proof

/-- Big-endian value of a run of bytes, the fold of rule R95. -/
def be (bs : List Byte) : Nat := bs.foldl (fun v b => v * 256 + b.toNat) 0

/-- The `n` bytes of a value, most significant first (rules R9, R95). -/
def bytesBE : Nat → Nat → List Byte
  | 0, _ => []
  | n + 1, v => bytesBE n (v / 256) ++ [BitVec.ofNat 8 v]

/-- The big-endian value of the `len` bytes at offset `off` of a unit. -/
def fieldBE (bs : List Byte) (off len : Nat) : Nat := be ((bs.drop off).take len)

/-- A signed 16-bit field, as its bit pattern (rule R96). -/
def field16 (bs : List Byte) (off : Nat) : S16 := BitVec.ofNat 16 (fieldBE bs off 2)

/-- Byte `i` of a unit that is known to have it. -/
def byteAt (bs : List Byte) (off : Nat) : Byte := BitVec.ofNat 8 (fieldBE bs off 1)

/-- `SFI = V[63:60]` (rules R98, R151). -/
def sliceSfi (V : Nat) : BitVec 4 := BitVec.ofNat 4 (V >>> 60)

/-- `residual[i] = (V >> (57 - 3*i)) & 7` (rules R98, R152). -/
def sliceCode (V i : Nat) : BitVec 3 := BitVec.ofNat 3 (V >>> (57 - 3 * i))

/-- The twenty residual codes in playback order (rule R153). -/
def sliceCodes (V : Nat) : List (BitVec 3) := (List.range Config.SLICE_LEN).map (sliceCode V)

/-- The slice value `V` of an index and its codes, packed most significant first (rules R64, R94). -/
def packSlice (sfi : BitVec 4) (codes : List (BitVec 3)) : Nat :=
  codes.foldl (fun v q => v * 8 + q.toNat) sfi.toNat

/-- Four consecutive signed fields (rules R93, R143). -/
def tapsAt (bs : List Byte) (off : Nat) : Taps :=
  ⟨field16 bs off, field16 bs (off + 2), field16 bs (off + 4), field16 bs (off + 6)⟩

def bytesOfS16 (v : S16) : List Byte := bytesBE 2 v.toNat

def bytesOfTaps (t : Taps) : List Byte :=
  bytesOfS16 t.t0 ++ bytesOfS16 t.t1 ++ bytesOfS16 t.t2 ++ bytesOfS16 t.t3

/-- Length in bytes of the unit a phase consumes (rules R67, R90); `none` where it consumes none. -/
def unitLength : Phase → Option Nat
  | .chdr => some Config.CHDR_LEN
  | .fhdr => some Config.FHDR_LEN
  | .lms => some Config.LMS_BYTES
  | .slc => some Config.SLC_LEN
  | .idle | .asm | .done | .failed => none

/-- Format CHDR (rule R91). -/
def readChdr (bs : List Byte) : Instr :=
  .chdr ⟨byteAt bs 0, byteAt bs 1, byteAt bs 2, byteAt bs 3⟩ (BitVec.ofNat 32 (fieldBE bs 4 4))

/-- Format FHDR (rules R92, R97). -/
def readFhdr (bs : List Byte) : Instr :=
  .fhdr (BitVec.ofNat 8 (fieldBE bs 0 1)) (BitVec.ofNat 24 (fieldBE bs 1 3))
    (BitVec.ofNat 16 (fieldBE bs 4 2)) (BitVec.ofNat 16 (fieldBE bs 6 2))

/-- Format LMS (rule R93). -/
def readLms (bs : List Byte) : Instr := .lms (tapsAt bs 0) (tapsAt bs 8)

/-- Format SLC (rules R94, R98). -/
def readSlc (bs : List Byte) : Instr := .slc (sliceSfi (be bs)) (sliceCodes (be bs))

/-- A stream unit from its phase and exactly its bytes (rule R102). -/
def decodeStream (ph : Phase) (bs : List Byte) : Except DecodeError Instr :=
  match unitLength ph with
  | none => .error .noUnitInPhase
  | some n =>
    if bs.length = n then
      match ph with
      | .chdr => .ok (readChdr bs)
      | .fhdr => .ok (readFhdr bs)
      | .lms => .ok (readLms bs)
      | .slc => .ok (readSlc bs)
      | .idle | .asm | .done | .failed => .error .noUnitInPhase
    else .error .wrongLength

/-- The row of a scale-factor index (rule R104). -/
def sfInstr (v : BitVec 4) : Instr :=
  match v.toNat with
  | 0 => .sf0 | 1 => .sf1 | 2 => .sf2 | 3 => .sf3 | 4 => .sf4 | 5 => .sf5 | 6 => .sf6 | 7 => .sf7
  | 8 => .sf8 | 9 => .sf9 | 10 => .sf10 | 11 => .sf11 | 12 => .sf12 | 13 => .sf13 | 14 => .sf14 | _ => .sf15

/-- The row of a residual code (rule R104). -/
def qInstr (q : BitVec 3) : Instr :=
  match q.toNat with
  | 0 => .q0 | 1 => .q1 | 2 => .q2 | 3 => .q3 | 4 => .q4 | 5 => .q5 | 6 => .q6 | _ => .q7

/-- A write of `CMD`: `0x01` is START, every other value is reserved (rule R105). -/
def decodeCommand (b : Byte) : Except DecodeError Instr :=
  if b = 0x01 then .ok .start else .error .reservedCommand

/-- The decoder (rules R102, R104, R105). -/
def decode : Fetched → Except DecodeError Instr
  | .stream ph bs => decodeStream ph bs
  | .field (.sfi v) => .ok (sfInstr v)
  | .field (.code q) => .ok (qInstr q)
  | .implicit => .ok .asm
  | .command b => decodeCommand b

/-- The encoder: each operation as the block would fetch it (rules R90 to R94, R104, R105). -/
def encode : Instr → Fetched
  | .chdr magic total => .stream .chdr ([magic.b0, magic.b1, magic.b2, magic.b3] ++ bytesBE 4 total.toNat)
  | .fhdr channels rate samples size =>
    .stream .fhdr (bytesBE 1 channels.toNat ++ bytesBE 3 rate.toNat ++ bytesBE 2 samples.toNat ++ bytesBE 2 size.toNat)
  | .lms history weights => .stream .lms (bytesOfTaps history ++ bytesOfTaps weights)
  | .slc sfi codes => .stream .slc (bytesBE 8 (packSlice sfi codes))
  | .sf0 => .field (.sfi 0) | .sf1 => .field (.sfi 1) | .sf2 => .field (.sfi 2) | .sf3 => .field (.sfi 3)
  | .sf4 => .field (.sfi 4) | .sf5 => .field (.sfi 5) | .sf6 => .field (.sfi 6) | .sf7 => .field (.sfi 7)
  | .sf8 => .field (.sfi 8) | .sf9 => .field (.sfi 9) | .sf10 => .field (.sfi 10) | .sf11 => .field (.sfi 11)
  | .sf12 => .field (.sfi 12) | .sf13 => .field (.sfi 13) | .sf14 => .field (.sfi 14) | .sf15 => .field (.sfi 15)
  | .q0 => .field (.code 0) | .q1 => .field (.code 1) | .q2 => .field (.code 2) | .q3 => .field (.code 3)
  | .q4 => .field (.code 4) | .q5 => .field (.code 5) | .q6 => .field (.code 6) | .q7 => .field (.code 7)
  | .asm => .implicit
  | .start => .command 0x01

/-- Bits of a fetched word; the table's `width_bits` for what `encode` gives. -/
def fetchedBits : Fetched → Nat
  | .stream _ bs => 8 * bs.length
  | .field (.sfi _) => 4
  | .field (.code _) => 3
  | .implicit => 0
  | .command _ => 8

/-- What a word of the opcode table stands for. The table numbers a unit's bits by its big-endian value (rule R8), so
the unit's bytes are `bytesBE` of it. A bare word carries no phase (rule R102) and the table's rows overlap as bare
words; the choice among them is the model's: DESIGN CHOICE, log entry 2. -/
def tableFetched (nbits w : Nat) : Fetched :=
  if nbits = 0 then .implicit
  else if nbits = 3 then .field (.code (BitVec.ofNat 3 w))
  else if nbits = 4 then .field (.sfi (BitVec.ofNat 4 w))
  else if nbits < 64 then
    if w = 1 then .command 0x01
    else if w < 8 then .field (.code (BitVec.ofNat 3 w))
    else if w < 16 then .field (.sfi (BitVec.ofNat 4 w))
    else .command (BitVec.ofNat 8 w)
  else if nbits < 128 then
    let bs := bytesBE 8 w
    let magic := Config.defaults.MAGIC
    if bs.take 4 = [magic.b0, magic.b1, magic.b2, magic.b3] then .stream .chdr bs else .stream .slc bs
  else .stream .lms (bytesBE 16 w)

/-- The instruction the decoder reads from a word numbered as the opcode table numbers it (log entry 2). -/
def decodeTableWord (nbits w : Nat) : Option Instr :=
  match decode (tableFetched nbits w) with
  | .ok i => some i
  | .error _ => none

end Sys2Proof
end

