-- ==== Sys2Proof/Machine/Fetch.lean ====
section
/-! DEFINITION. What the sequencer executes next (rules R24, R61, R62, R102, R123): a field an SLC step has still to run,
the unit at `POS`, ASM, or nothing. -/

namespace Sys2Proof
namespace Machine

open Host (Outcome)

/-- The unit bytes a phase needs, at the stream position (rule R61). -/
def unitBytes (s : State) : Option (List Byte) := (unitLength s.PH).bind s.readBytes

/-- The failure a short read reports: `MalformedContainer` for CHDR, `TruncatedStream` for every other unit (rules R61,
R222, R223). -/
def shortReadError (ph : Phase) : ErrCode := if ph = .chdr then .malformedContainer else .truncatedStream

/-- A unit is needed and the host has neither offered all its bytes nor signalled the end: the sequencer does not step
(rule R62). -/
def waiting (s : State) : Bool := (unitLength s.PH).isSome && (unitBytes s).isNone && !s.EOS

/-- A unit is needed and the stream ends before its last byte (rule R61). -/
def shortRead (s : State) : Bool := (unitLength s.PH).isSome && (unitBytes s).isNone && s.EOS

/-- The word the sequencer executes next; `none` when it has none. -/
def fetch (s : State) : Option Fetched :=
  match s.PEND with
  | f :: _ => some (.field f)
  | [] => if s.PH = .asm then some .implicit else (unitBytes s).map (.stream s.PH)

/-- The state an operation is executed in: a field leaves the list of those still to run. -/
def beforeExec (s : State) : State := { s with PEND := s.PEND.tail }

/-- After the last field of a slice the SLC step is over. -/
def afterField (s : State) : State := if s.PEND = [] then endSlice s else s

/-- What follows the execution of a fetched word: for a unit or ASM nothing, for a field the end of its slice. -/
def afterExec (f : Fetched) (o : Outcome State Fault Refusal) : Outcome State Fault Refusal :=
  match f, o with
  | .field _, .next t => .next (afterField t)
  | _, o => o

/-- A step with no word to execute: a short read fails; in IDLE, DONE and FAILED, and while waiting for input, no step is
enabled and nothing changes (rules R62, R123; log entry 5). -/
def noFetch (s : State) : State := if shortRead s then raise (shortReadError s.PH) s else s

/-- A stream whose bytes from `pos` on are a unit's: what is offered before it is kept, and made up with zero bytes where
the host had offered less. -/
def streamWith (m : Memory) (pos : Nat) (bs : List Byte) : Memory :=
  Memory.offer [] (((m.map Prod.snd).take pos ++ List.replicate (pos - m.length) 0) ++ bs)

/-- `s` arranged so that its next step executes a fetched word (log entry 1). -/
def placeFetched (s : State) (f : Fetched) : State :=
  match f with
  | .stream ph bs => { s with PH := ph, STATUS := .busy, PEND := [], HOST := [], IN := streamWith s.IN s.POS bs }
  | .field g => { s with PH := .slc, STATUS := .busy, PEND := [g], HOST := [] }
  | .implicit => { s with PH := .asm, STATUS := .busy, PEND := [], HOST := [] }
  | .command b => { s with HOST := .writeCmd b :: s.HOST }

end Machine
end Sys2Proof
end

