-- ==== Sys2Proof/Machine/Step.lean ====
section
/-! DEFINITION. One step of the model: the host's next move, or a step of the sequencer (rules R5, R16). -/

namespace Sys2Proof
namespace Machine

open Host (Outcome)

/-- A fetched word is decoded and executed. -/
def execFetched (f : Fetched) (s : State) : Outcome State Fault Refusal :=
  match decode f with
  | .ok i => afterExec f (exec i (beforeExec s))
  | .error e => .refused (.undecoded e)

/-- The sequencer's turn. -/
def sequencerStep (s : State) : Outcome State Fault Refusal :=
  match fetch s with
  | some f => execFetched f s
  | none => .next (noFetch s)

/-- A write of `CMD`: START is executed, a reserved value changes nothing (rule R105). -/
def commandStep (b : Byte) (s : State) : Outcome State Fault Refusal :=
  match decode (.command b) with
  | .ok i => exec i s
  | .error _ => .next s

/-- The host's move (rules R210 to R215); its doing nothing is the sequencer's turn. -/
def hostStep (e : HostEvent) (s : State) : Outcome State Fault Refusal :=
  match e with
  | .idle => sequencerStep s
  | .writeCmd b => commandStep b s
  | .offer bs => offerBytes bs s
  | .endStream => .next (endStream s)
  | .reset => .next (resetBlock s)
  | .readReg r => readReg r s
  | .readPcm k => .next (readPcm k s)
  | .readPcmByte k upper => .next (readPcmByte k upper s)

/-- One step: the head of the host's script says who moves; with the script at its end the sequencer does. -/
def step (s : State) : Outcome State Fault Refusal :=
  match s.HOST with
  | [] => sequencerStep s
  | e :: rest => hostStep e { s with HOST := rest }

/-- `s` with the instruction of a table word placed where `step` fetches its next one (log entries 1 and 2). -/
def State.withFetchWord (s : State) (nbits w : Nat) : State := placeFetched s (tableFetched nbits w)

end Machine
end Sys2Proof
end

