-- ==== Sys2Proof/Safety.lean ====
section
/-! DEFINITION. The terms the claims use: the invariants of a run, what a failure leaves, what the host may see of a
finished decode, and the arithmetic of the spec written over integers and rationals, apart from the datapath's own text. -/

namespace Sys2Proof
namespace Machine

open Host (Outcome)

/-- `STATUS` as a function of `PH` (rule R26). -/
def statusOf : Phase → Status
  | .idle => .idle
  | .chdr | .fhdr | .lms | .slc | .asm => .busy
  | .done => .done
  | .failed => .failed

/-- What holds between any two steps of a run (rules R24 to R36, R38). -/
structure State.Inv (s : State) : Prop where
  /-- Rule R26. -/
  status : s.STATUS = statusOf s.PH
  /-- Rule R27. -/
  err : s.ERR ≠ .none ↔ s.STATUS = .failed
  /-- Rule R36. -/
  outlen : s.OUTLEN = s.PCM.length
  /-- Rules R71, R72. -/
  unpublished : s.STATUS ≠ .done → s.PCM = []
  /-- Rule R32: bits 31:24 are zero. -/
  rate : s.RATE.toNat < 2 ^ 24
  /-- Rule R24: 20 bits hold every frame index. -/
  frames : s.FI < 2 ^ 20
  /-- Rule R24: 12 bits hold every slice group index. -/
  groups : s.SI < 2 ^ 12
  /-- Rule R30: 20 bits. -/
  nframes : s.NFRAMES < 2 ^ 20
  /-- Rule R35: 12 bits. -/
  nslices : s.NSLICES < 2 ^ 12
  /-- The input stream keeps its canonical form (rules R60, R214). -/
  stream : s.IN.wf = true
  /-- The datapath's temporaries do not survive a step (rule R38). -/
  settled : s.PEND = [] ∧ s.SF = 0

/-- `length(CHBUF[c])`. -/
def State.bufLen (s : State) (c : Fin NCH_MAX) : Nat := s.CHBUF[c].length

/-- The buffers of the channels in use have grown alike: where the sequencer stands inside a slice group, those before
`CI` are ahead by the group's samples (rules R126, R201). Before the first decode, until its first frame header and after a
failure there is no sample at all (rules R42, R210, R228). -/
def State.Balanced (s : State) : Prop :=
  match s.PH with
  | .idle | .chdr | .failed => ∀ c : Fin NCH_MAX, s.CHBUF[c] = []
  | .fhdr => (s.FI = 0 → ∀ c : Fin NCH_MAX, s.CHBUF[c] = []) ∧ ∃ n, ∀ c : Fin NCH_MAX, c.val < s.CHANNELS.toNat → s.bufLen c = n
  | .lms => s.CI.val < s.CHANNELS.toNat ∧ ∃ n, ∀ c : Fin NCH_MAX, c.val < s.CHANNELS.toNat → s.bufLen c = n
  | .slc => s.CI.val < s.CHANNELS.toNat ∧
      ∃ n, ∀ c : Fin NCH_MAX, c.val < s.CHANNELS.toNat → s.bufLen c = n + if c < s.CI then s.groupLen else 0
  | .asm => ∃ n, ∀ c : Fin NCH_MAX, c.val < s.CHANNELS.toNat → s.bufLen c = n
  | .done => True

/-- `t` is what failure entry leaves of `s` (rules R220, R228, R229): the failure's code, no output, the flags as they
were, and the inputs and parameters untouched. What the rule calls unspecified is not mentioned. -/
structure FailsWith (x : ErrCode) (s t : State) : Prop where
  phase : t.PH = .failed
  status : t.STATUS = .failed
  code : t.ERR = x
  noOutput : t.PCM = [] ∧ t.OUTLEN = 0
  noBuffers : ∀ c : Fin NCH_MAX, t.CHBUF[c] = []
  flags : t.POVF = s.POVF ∧ t.WOVF = s.WOVF
  inputs : t.IN = s.IN ∧ t.EOS = s.EOS ∧ t.CFG = s.CFG ∧ t.HOST = s.HOST ∧ t.REPLIES = s.REPLIES

/-- `POS` may take on `n` more bytes (rules R25, R238). -/
def State.RoomForBytes (s : State) (n : Nat) : Prop := ∀ w, s.CFG.POS_WIDTH = some w → s.POS + n ≤ 2 ^ w - 1

/-- The buffers may take on `n` more samples (rules R73, R238). -/
def State.RoomForSamples (s : State) (n : Nat) : Prop :=
  ∀ cap, s.CFG.PCM_CAPACITY = some cap → (s.CHBUF.toList.map List.length).sum + n ≤ cap

/-- Bytes of the stream that have not been consumed. -/
def State.bytesLeft (s : State) : Nat := s.IN.length - s.POS

/-- The `n` bytes of the stream from offset `a` on are `bs` (rule R61). -/
def BytesAt (m : Memory) (a : Nat) (bs : List Byte) : Prop := ∀ k, k < bs.length → m.read (a + k) = bs[k]?

/-- It is the sequencer's turn, and `rest` is the host's script after it (log entry 4). -/
def SequencerTurn (s : State) (rest : List HostEvent) : Prop :=
  (s.HOST = [] ∧ rest = []) ∨ s.HOST = .idle :: rest

/-- The host's next move changes the decode in progress or the result: START or `RESET`. -/
def hostTakesOver (s : State) : Prop := (∃ rest, s.HOST = .writeCmd 0x01 :: rest) ∨ (∃ rest, s.HOST = .reset :: rest)

/-- What the host may rely on of an ended decode (rules R76, R203, R261): nothing but the failure code and the flags
after a failure, the whole result after `DONE`. -/
inductive Result where
  | running
  | failed (err : ErrCode) (povf wovf : Bool)
  | done (pcm : List S16) (outlen : Nat) (rate : BitVec 32) (channels : BitVec 8) (total : BitVec 32) (povf wovf : Bool)
  deriving DecidableEq, Repr

def State.result (s : State) : Result :=
  match s.STATUS with
  | .idle | .busy => .running
  | .failed => .failed s.ERR s.POVF s.WOVF
  | .done => .done s.PCM s.OUTLEN s.RATE s.CHANNELS s.TOTAL s.POVF s.WOVF

/-- The result a run has reached after `k` steps. -/
def resultAfter (k : Nat) (s : State) : Option Result :=
  match Host.Core.run Sys2Proof.core k s with
  | .next t => some (State.result t)
  | .fault _ | .refused _ => none

/-- The host's script of one decode: START, the stream, its end (rules R210, R214). -/
def decodeScript (stream : List Byte) : List HostEvent := [.writeCmd 0x01, .offer stream, .endStream]

/-- The two's complement reading of a pair of bytes, first byte most significant (rules R10, R96). -/
def sext16 (b0 b1 : Byte) : ℤ :=
  if b0.toNat * 256 + b1.toNat < 32768 then b0.toNat * 256 + b1.toNat else b0.toNat * 256 + b1.toNat - 65536

/-- Rounding to the nearest integer, ties away from zero (rule R12). -/
def rha (x : ℚ) : ℤ := if 0 ≤ x then ⌊x + 1 / 2⌋ else -⌊-x + 1 / 2⌋

/-- The residual table as the source gives it (rule R167). -/
def dqTable (q : BitVec 3) : ℚ := 
  (#v[3 / 4, -3 / 4, 5 / 2, -5 / 2, 9 / 2, -9 / 2, 7, -7] : Vector ℚ 8)[q.toNat]'q.isLt

/-- The prediction sum over the registers' integer readings (rule R181). -/
def exactSum (h w : Taps) : ℤ :=
  h.t0.toInt * w.t0.toInt + h.t1.toInt * w.t1.toInt + h.t2.toInt * w.t2.toInt + h.t3.toInt * w.t3.toInt

/-- The exact updated weight of one slot (rule R185), with `delta = floor(r / 16)` (rule R184). -/
def exactWeight (h w : S16) (r : ℤ) : ℤ := if h.toInt < 0 then w.toInt - ⌊(r : ℚ) / 16⌋ else w.toInt + ⌊(r : ℚ) / 16⌋

/-- `new` is the 16-bit register holding `u` modulo 65536 (rules R10, R185). -/
def HoldsWrapped (new : S16) (u : ℤ) : Prop := (new.toInt - u) % 65536 = 0

/-- One SAMPLE of rule R180 on history `h` and weights `w` with contribution `r`: the registers and the sample it leaves
and the flag events it raises. -/
structure SampleLaw (h w : Taps) (r : ℤ) (h' w' : Taps) (x : S16) (povf wovf : Bool) : Prop where
  sample : x.toInt = max (-32768) (min 32767 (⌊(exactSum h w : ℚ) / 8192⌋ + r))
  history : h' = ⟨h.t1, h.t2, h.t3, x⟩
  weight0 : HoldsWrapped w'.t0 (exactWeight h.t0 w.t0 r)
  weight1 : HoldsWrapped w'.t1 (exactWeight h.t1 w.t1 r)
  weight2 : HoldsWrapped w'.t2 (exactWeight h.t2 w.t2 r)
  weight3 : HoldsWrapped w'.t3 (exactWeight h.t3 w.t3 r)
  povf : povf = true ↔ exactSum h w < -2 ^ 31 ∨ 2 ^ 31 - 1 < exactSum h w
  wovf : wovf = true ↔ ∃ u ∈ [exactWeight h.t0 w.t0 r, exactWeight h.t1 w.t1 r, exactWeight h.t2 w.t2 r,
    exactWeight h.t3 w.t3 r], u < -32768 ∨ 32767 < u

/-- The samples of a slice, one SAMPLE after another on what the one before left (rules R150, R169, R188). -/
def SliceLaw (sf : BitVec 12) : List (BitVec 3) → Taps → Taps → List S16 → Taps → Taps → Bool → Bool → Prop
  | [], h, w, xs, h', w', po, wo => xs = [] ∧ h' = h ∧ w' = w ∧ po = false ∧ wo = false
  | q :: qs, h, w, xs, h', w', po, wo =>
    ∃ h1 w1 x po1 wo1 xs' po' wo', SampleLaw h w (rha ((sf.toNat : ℚ) * dqTable q)) h1 w1 x po1 wo1 ∧
      SliceLaw sf qs h1 w1 xs' h' w' po' wo' ∧ xs = x :: xs' ∧ po = (po1 || po') ∧ wo = (wo1 || wo')

end Machine
end Sys2Proof
end

