-- ==== Sys2Proof/Certificates/Slice0/Obligations.lean ====
section
/-! DEFINITION. The statements for the provers: encodings, what every operation does to the state, failures, the host's
moves, invariants of a run, and the block's behaviour as a whole. -/

open Sys2Proof Sys2Proof.Machine
open Host (Outcome)

section Encodings

/-- Decoding the encoding of a well-formed instruction gives it back, with every operand at every value. -/
def Obligations.DecodeOfEncodeIsIdentity : Prop :=
  ∀ i : Instr, i.wellFormed = true → decode (encode i) = .ok i

/-- A word that is read as an instruction is that instruction's encoding: each word has one meaning. -/
def Obligations.EncodeOfDecodeIsIdentity : Prop :=
  ∀ (f : Fetched) (i : Instr), decode f = .ok i → i.wellFormed = true ∧ encode i = f

/-- Rule R98: with `V` the big-endian value of the eight bytes, `SFI = V >> 60` and `residual[i] = (V >> (57 - 3*i)) & 7`. -/
def Obligations.SliceFieldsAreBitRanges : Prop :=
  ∀ b0 b1 b2 b3 b4 b5 b6 b7 : Byte, ∃ sfi codes,
    decode (.stream .slc [b0, b1, b2, b3, b4, b5, b6, b7]) = .ok (.slc sfi codes) ∧ codes.length = 20 ∧
    ∀ V : Nat, V = b0.toNat * 256 ^ 7 + b1.toNat * 256 ^ 6 + b2.toNat * 256 ^ 5 + b3.toNat * 256 ^ 4 +
        b4.toNat * 256 ^ 3 + b5.toNat * 256 ^ 2 + b6.toNat * 256 + b7.toNat →
      sfi.toNat = V / 2 ^ 60 ∧ ∀ i, i < 20 → (codes[i]?).map BitVec.toNat = some (V / 2 ^ (57 - 3 * i) % 8)

/-- Rules R91, R92, R97: the fields of the two headers. -/
def Obligations.HeaderFieldsAreBigEndian : Prop :=
  (∀ m0 m1 m2 m3 b0 b1 b2 b3 : Byte, ∃ total : BitVec 32,
    decode (.stream .chdr [m0, m1, m2, m3, b0, b1, b2, b3]) = .ok (.chdr ⟨m0, m1, m2, m3⟩ total) ∧
    total.toNat = b0.toNat * 2 ^ 24 + b1.toNat * 2 ^ 16 + b2.toNat * 2 ^ 8 + b3.toNat) ∧
  (∀ c r0 r1 r2 n0 n1 z0 z1 : Byte, ∃ (rate : BitVec 24) (samples size : BitVec 16),
    decode (.stream .fhdr [c, r0, r1, r2, n0, n1, z0, z1]) = .ok (.fhdr c rate samples size) ∧
    rate.toNat = r0.toNat * 65536 + r1.toNat * 256 + r2.toNat ∧
    samples.toNat = n0.toNat * 256 + n1.toNat ∧ size.toNat = z0.toNat * 256 + z1.toNat)

/-- Rules R93, R96, R143: four history values, then four weights, ascending, each a big-endian two's complement pair. -/
def Obligations.PredictorBlockFieldOrder : Prop :=
  ∀ a0 a1 b0 b1 c0 c1 d0 d1 e0 e1 f0 f1 g0 g1 h0 h1 : Byte, ∃ history weights,
    decode (.stream .lms [a0, a1, b0, b1, c0, c1, d0, d1, e0, e1, f0, f1, g0, g1, h0, h1]) =
      .ok (.lms history weights) ∧
    history.t0.toInt = sext16 a0 a1 ∧ history.t1.toInt = sext16 b0 b1 ∧
    history.t2.toInt = sext16 c0 c1 ∧ history.t3.toInt = sext16 d0 d1 ∧
    weights.t0.toInt = sext16 e0 e1 ∧ weights.t1.toInt = sext16 f0 f1 ∧
    weights.t2.toInt = sext16 g0 g1 ∧ weights.t3.toInt = sext16 h0 h1

/-- Words written out from the formats decode to the instructions they stand for. -/
def Obligations.WrittenOutWordsDecode : Prop :=
  decode (.stream .chdr [0x71, 0x6F, 0x61, 0x66, 0x00, 0x00, 0x00, 0x14]) =
    .ok (.chdr ⟨0x71, 0x6F, 0x61, 0x66⟩ 20) ∧
  decode (.stream .fhdr [0x01, 0x00, 0xAC, 0x44, 0x00, 0x14, 0x00, 0x20]) = .ok (.fhdr 1 44100 20 32) ∧
  decode (.stream .slc [0x12, 0x34, 0x56, 0x78, 0x9A, 0xBC, 0xDE, 0xF0]) =
    .ok (.slc 1 [1, 0, 6, 4, 2, 5, 4, 7, 4, 2, 3, 2, 5, 7, 1, 5, 7, 3, 6, 0]) ∧
  decode (.field (.sfi 0x9)) = .ok .sf9 ∧ decode (.field (.code 0x5)) = .ok .q5 ∧
  decode .implicit = .ok .asm ∧ decode (.command 0x01) = .ok .start

/-- A step runs the decoded instruction: a unit's bytes at `POS`, ASM, a field an SLC step has still to run (after the
last of them the SLC step is over), and a write of `0x01` to `CMD` (rules R16, R102, R105, R123, R210). That the head of the
host's script says who moves is the model's (log entry 4), and so are the pending fields (log entry 10). -/
def Obligations.StepRunsDecodedInstruction : Prop :=
  (∀ (s : State) (rest : List HostEvent) (bs : List Byte) (i : Instr), SequencerTurn s rest → s.PEND = [] →
    unitLength s.PH = some bs.length → BytesAt s.IN s.POS bs → decode (.stream s.PH bs) = .ok i →
    i.wellFormed = true → step s = exec i { s with HOST := rest }) ∧
  (∀ (s : State) (rest : List HostEvent), SequencerTurn s rest → s.PEND = [] → s.PH = .asm →
    step s = exec .asm { s with HOST := rest }) ∧
  (∀ (s t : State) (rest : List HostEvent) (f : SubField) (fs : List SubField) (i : Instr), SequencerTurn s rest →
    s.PEND = f :: fs → decode (.field f) = .ok i → exec i { s with HOST := rest, PEND := fs } = .next t →
    step s = .next (if t.PEND = [] then endSlice t else t)) ∧
  (∀ (s : State) (rest : List HostEvent), s.HOST = .writeCmd 0x01 :: rest →
    step s = exec .start { s with HOST := rest })

end Encodings

section ResetAndStart

/-- Rule R42: what reset leaves. -/
def Obligations.ResetLeavesSpecifiedValues : Prop :=
  State.reset.PH = .idle ∧ State.reset.STATUS = .idle ∧ State.reset.ERR = .none ∧ State.reset.POVF = false ∧
  State.reset.WOVF = false ∧ State.reset.OUTLEN = 0 ∧ State.reset.PCM = [] ∧
  (∀ c : Fin NCH_MAX, State.reset.CHBUF[c] = [])

/-- Rule R215: `RESET` in any state, a running decode included, leaves what rule R42 gives. -/
def Obligations.ResetAbandonsAnyDecode : Prop :=
  ∀ (s : State) (rest : List HostEvent), s.HOST = .reset :: rest → ∃ t, step s = .next t ∧
    t.PH = .idle ∧ t.STATUS = .idle ∧ t.ERR = .none ∧ t.POVF = false ∧ t.WOVF = false ∧ t.OUTLEN = 0 ∧ t.PCM = [] ∧
    ∀ c : Fin NCH_MAX, t.CHBUF[c] = []

/-- Rule R210: START while `STATUS` is not `BUSY`, with everything else left as it was. That the new stream is an empty `IN`
with `EOS` clear, so that bytes offered before START are lost, is the model's (log entry 3). -/
def Obligations.StartEstablishesDecode : Prop :=
  ∀ s : State, s.STATUS ≠ .busy → exec .start s = .next { s with
    CHBUF := Vector.replicate NCH_MAX []
    PCM := []
    OUTLEN := 0
    ERR := .none
    POVF := false
    WOVF := false
    POS := 0
    FI := 0
    SI := 0
    CI := 0
    PH := .chdr
    STATUS := .busy
    IN := []
    EOS := false }

/-- Rules R211 and R105: START while `BUSY`, and a write of any other value to `CMD`, change no state. -/
def Obligations.RefusedCommandsChangeNothing : Prop :=
  (∀ s : State, s.STATUS = .busy → exec .start s = .next s) ∧
  (∀ (s : State) (b : Byte) (rest : List HostEvent), s.HOST = .writeCmd b :: rest → (b ≠ 0x01 ∨ s.STATUS = .busy) →
    step s = .next { s with HOST := rest })

end ResetAndStart

section Headers

/-- CHDR with the right tag: what it loads and that nothing else changes. -/
def Obligations.ChdrLoadsTotalAndFrameCount : Prop :=
  ∀ (total : BitVec 32) (s : State), s.PH = .chdr → s.RoomForBytes 8 →
    exec (.chdr s.CFG.MAGIC total) s = .next { s with
      POS := s.POS + 8
      TOTAL := total
      NFRAMES := total.toNat / 5120 + 1
      FI := 0
      PH := .fhdr }

/-- Rule R122: the frame count is the literal `round(total/256/20 + 0.5)` with round-half-up. -/
def Obligations.FrameCountIsRoundHalfUp : Prop :=
  ∀ (total : BitVec 32) (s : State), s.PH = .chdr → s.RoomForBytes 8 → ∃ t,
    exec (.chdr s.CFG.MAGIC total) s = .next t ∧
    (t.NFRAMES : ℤ) = ⌊(((total.toNat : ℚ) / 256 / 20 + 1 / 2) + 1 / 2)⌋ ∧ t.NFRAMES = total.toNat / 5120 + 1

/-- Rule R222: the two causes of `MalformedContainer`. Bytes can be consumed only while `POS` has room for them (rule R238),
which it always has with the unbounded default. -/
def Obligations.MalformedContainerCauses : Prop :=
  ∀ (s : State) (rest : List HostEvent), SequencerTurn s rest → s.PEND = [] → s.PH = .chdr → s.IN.wf = true →
    ((s.EOS = true → s.bytesLeft < 8 →
      ∃ t, step s = .next t ∧ FailsWith .malformedContainer { s with HOST := rest } t) ∧
    (∀ bs : List Byte, bs.length = 8 → BytesAt s.IN s.POS bs → s.RoomForBytes 8 →
      bs.take 4 ≠ [s.CFG.MAGIC.b0, s.CFG.MAGIC.b1, s.CFG.MAGIC.b2, s.CFG.MAGIC.b3] →
      ∃ t, step s = .next t ∧ FailsWith .malformedContainer { s with HOST := rest } t))

/-- FHDR that agrees in its channel count, by where the sequencer goes next. -/
def Obligations.FhdrLoadsFrameParameters : Prop :=
  ∀ (channels : BitVec 8) (rate : BitVec 24) (samples size : BitVec 16) (s u : State), s.PH = .fhdr →
    s.RoomForBytes 8 → (s.FI = 0 ∨ channels = s.CHANNELS) →
    u = { s with
      POS := s.POS + 8
      CHANNELS := channels
      RATE := 0#8 ++ rate
      FSAMPLES := samples
      FSIZE := size
      NSLICES := (samples.toNat + 19) / 20 } →
    (channels ≠ 0 → exec (.fhdr channels rate samples size) s = .next { u with CI := 0, PH := .lms }) ∧
    (channels = 0 → s.FI + 1 < s.NFRAMES →
      exec (.fhdr channels rate samples size) s = .next { u with FI := s.FI + 1 }) ∧
    (channels = 0 → ¬ s.FI + 1 < s.NFRAMES → exec (.fhdr channels rate samples size) s = .next { u with PH := .asm })

/-- Rule R224: `ChannelCountMismatch`, its cause and what has been consumed; frame 0 cannot raise it. `POS` has room for the
header it consumes, as it always has with the unbounded default (rule R238). -/
def Obligations.ChannelCountMismatchCause : Prop :=
  (∀ (channels : BitVec 8) (rate : BitVec 24) (samples size : BitVec 16) (s : State), s.RoomForBytes 8 →
    0 < s.FI → channels ≠ s.CHANNELS → ∃ t, exec (.fhdr channels rate samples size) s = .next t ∧
      FailsWith .channelCountMismatch s t ∧ t.POS = s.POS + 8) ∧
  (∀ (channels : BitVec 8) (rate : BitVec 24) (samples size : BitVec 16) (s t : State), s.FI = 0 → s.ERR = .none →
    exec (.fhdr channels rate samples size) s = .next t → t.ERR ≠ .channelCountMismatch)

end Headers

section UnitsAndSequence

/-- Rule R123: `advance()`, phase by phase. -/
def Obligations.AdvanceFollowsTheSequence : Prop :=
  (∀ s : State, s.PH = .chdr → advance s = { s with FI := 0, PH := .fhdr }) ∧
  (∀ s : State, s.PH = .fhdr → s.CHANNELS ≠ 0 → advance s = { s with CI := 0, PH := .lms }) ∧
  (∀ s : State, s.PH = .lms ∨ s.PH = .slc → s.CI.val + 1 < s.CHANNELS.toNat →
    ∃ c : Fin NCH_MAX, c.val = s.CI.val + 1 ∧ advance s = { s with CI := c }) ∧
  (∀ s : State, s.PH = .lms → ¬ s.CI.val + 1 < s.CHANNELS.toNat → s.NSLICES ≠ 0 →
    advance s = { s with SI := 0, CI := 0, PH := .slc }) ∧
  (∀ s : State, s.PH = .slc → ¬ s.CI.val + 1 < s.CHANNELS.toNat → s.SI + 1 < s.NSLICES →
    advance s = { s with SI := s.SI + 1, CI := 0 }) ∧
  (∀ s : State, (s.PH = .fhdr ∧ s.CHANNELS = 0) ∨ (s.PH = .lms ∧ ¬ s.CI.val + 1 < s.CHANNELS.toNat ∧ s.NSLICES = 0) ∨
      (s.PH = .slc ∧ ¬ s.CI.val + 1 < s.CHANNELS.toNat ∧ ¬ s.SI + 1 < s.NSLICES) →
    (s.FI + 1 < s.NFRAMES → advance s = { s with FI := s.FI + 1, PH := .fhdr }) ∧
    (¬ s.FI + 1 < s.NFRAMES → advance s = { s with PH := .asm })) ∧
  (∀ s : State, s.PH = .asm → advance s = { s with PH := .done }) ∧
  (∀ s : State, s.PH = .idle ∨ s.PH = .done ∨ s.PH = .failed → advance s = s)

/-- Rule R141: LMS replaces all eight registers of channel `CI` whatever they held, and changes nothing else but the
position in the stream. -/
def Obligations.LmsReplacesChannelState : Prop :=
  ∀ (history weights : Taps) (s : State), s.PH = .lms → s.RoomForBytes 16 →
    exec (.lms history weights) s = .next (advance { s with
      POS := s.POS + 16
      H := s.H.set s.CI history
      W := s.W.set s.CI weights })

/-- Rule R126: slice groups and the tail. -/
def Obligations.SliceGroupSizes : Prop :=
  ∀ ns : BitVec 16,
    20 * sliceGroups ns < ns.toNat + 20 ∧ ns.toNat ≤ 20 * sliceGroups ns ∧
    (∀ si, si < sliceGroups ns → 1 ≤ groupSize .truncate ns si ∧ groupSize .truncate ns si = min 20 (ns.toNat - 20 * si) ∧
      groupSize .full20 ns si = 20) ∧
    ((List.range (sliceGroups ns)).map (groupSize .truncate ns)).sum = ns.toNat ∧
    ((List.range (sliceGroups ns)).map (groupSize .full20 ns)).sum = 20 * sliceGroups ns

/-- SLC decodes its group: the first `n(SI)` codes, `n(SI)` written out as rule R126 gives it, run SAMPLE after SAMPLE on
channel `CI`; nothing else changes but the position and the flags. -/
def Obligations.SlcDecodesItsGroup : Prop :=
  ∀ (sfi : BitVec 4) (codes : List (BitVec 3)) (s : State) (n : Nat), s.PH = .slc → codes.length = 20 →
    (s.CFG.TAIL_MODE = .truncate → n = min 20 (s.FSAMPLES.toNat - 20 * s.SI)) → (s.CFG.TAIL_MODE = .full20 → n = 20) →
    s.RoomForBytes 8 → s.RoomForSamples n → ∃ h' w' xs po wo, xs.length = n ∧
      SliceLaw (sfRom sfi) (codes.take n) s.H[s.CI] s.W[s.CI] xs h' w' po wo ∧
      exec (.slc sfi codes) s = .next (advance { s with
        POS := s.POS + 8
        H := s.H.set s.CI h'
        W := s.W.set s.CI w'
        CHBUF := s.CHBUF.set s.CI (s.CHBUF[s.CI] ++ xs)
        POVF := s.POVF || po
        WOVF := s.WOVF || wo
        SF := 0
        PEND := [] })

/-- An SLC step is the run of its fields one by one: the atomic step and as many single steps agree. That the fields can
be stepped one by one is the model's (log entry 10). -/
def Obligations.SliceStepIsItsFieldsInOrder : Prop :=
  ∀ (sfi : BitVec 4) (codes : List (BitVec 3)) (s : State), s.HOST = [] → s.PEND = [] → s.RoomForBytes 8 →
    s.RoomForSamples (codes.take s.groupLen).length →
    Host.Core.run Sys2Proof.core ((codes.take s.groupLen).length + 1)
      { s with POS := s.POS + 8, PEND := .sfi sfi :: (codes.take s.groupLen).map .code } = exec (.slc sfi codes) s

/-- A unit step consumes exactly its unit, or fails, or waits and changes nothing; every other sequencer step leaves
`POS` or fails. -/
def Obligations.UnitsConsumeExactlyTheirBytes : Prop :=
  ∀ (s t : State) (rest : List HostEvent), SequencerTurn s rest → s.PEND = [] → step s = .next t →
    t.PH = .failed ∨ t = { s with HOST := rest } ∨
    (∃ n, unitLength s.PH = some n ∧ t.POS = s.POS + n ∧ s.IN = t.IN) ∨ (s.PH = .asm ∧ t.POS = s.POS ∧ s.IN = t.IN)

end UnitsAndSequence

section Datapath

/-- Rule R165: each scale-factor code selects `round((k+1)^2.75)`, and changes nothing else. That a bare code leaves its
choice in the field `SF` is the model's (log entry 10). -/
def Obligations.ScaleFactorCodesFollowThePowerLaw : Prop :=
  ∀ p ∈ [(Instr.sf0, (0 : ℕ)), (.sf1, 1), (.sf2, 2), (.sf3, 3), (.sf4, 4), (.sf5, 5), (.sf6, 6), (.sf7, 7), (.sf8, 8), (.sf9, 9),
      (.sf10, 10), (.sf11, 11), (.sf12, 12), (.sf13, 13), (.sf14, 14), (.sf15, 15)],
    ∀ s : State, ∃ sf : BitVec 12, exec p.1 s = .next { s with SF := sf } ∧
      (sf.toNat : ℤ) = ⌊((p.2 : ℝ) + 1) ^ (2.75 : ℝ) + 1 / 2⌋

/-- Rules R150, R167, R169, R180 and R70: each residual code runs SAMPLE on channel `CI` with its contribution and appends the
sample; no other channel and nothing else changes. That a bare code takes the scale factor from the field `SF` is the model's
(log entry 10), and so is that it checks no capacity (log entry 11). -/
def Obligations.ResidualCodesRunSample : Prop :=
  ∀ p ∈ [(Instr.q0, (3 / 4 : ℚ)), (.q1, -3 / 4), (.q2, 5 / 2), (.q3, -5 / 2), (.q4, 9 / 2), (.q5, -9 / 2), (.q6, 7), (.q7, -7)],
    ∀ s : State, ∃ h' w' x po wo,
      SampleLaw s.H[s.CI] s.W[s.CI] (rha ((s.SF.toNat : ℚ) * p.2)) h' w' x po wo ∧
      exec p.1 s = .next { s with
        H := s.H.set s.CI h'
        W := s.W.set s.CI w'
        CHBUF := s.CHBUF.set s.CI (s.CHBUF[s.CI] ++ [x])
        POVF := s.POVF || po
        WOVF := s.WOVF || wo }

/-- Rule R169: the integer contribution is the rounded product, ties away from zero, for every scale factor. -/
def Obligations.ResidualContributionIsRoundedProduct : Prop :=
  ∀ (sf : BitVec 12) (q : BitVec 3), resid sf q = rha ((sf.toNat : ℚ) * dqTable q)

/-- Rule R189, which the spec marks as derived: the range of every intermediate value. -/
def Obligations.DatapathRanges : Prop :=
  ∀ (h w : Taps) (sfi : BitVec 4) (q : BitVec 3), ∀ r, r = resid (sfRom sfi) q →
    (∀ a : S16, -32768 ≤ a.toInt ∧ a.toInt ≤ 32767) ∧
    -32768 ≤ recon (predict h w) r ∧ recon (predict h w) r ≤ 32767 ∧
    (∀ a b : S16, -1073709056 ≤ a.toInt * b.toInt ∧ a.toInt * b.toInt ≤ 1073741824) ∧
    -4294836224 ≤ predSum h w ∧ predSum h w ≤ 4294967296 ∧
    -524272 ≤ predict h w ∧ predict h w ≤ 524288 ∧
    -14336 ≤ r ∧ r ≤ 14336 ∧ r ≠ 0 ∧
    -538608 ≤ predict h w + r ∧ predict h w + r ≤ 538624 ∧
    -896 ≤ delta r ∧ delta r ≤ 896 ∧
    (∀ a b : S16, -33664 ≤ weightSum a b (delta r) ∧ weightSum a b (delta r) ≤ 33663)

/-- With `POVF = 0` after a residual code its prediction sum fitted 32 bits, and with `WOVF = 0` every weight it stored is
the exact sum: the region where every implementation agrees (rules R182, R185). -/
def Obligations.ClearFlagsMeanExactArithmetic : Prop :=
  ∀ (q : BitVec 3) (s t : State), exec (qInstr q) s = .next t →
    (t.POVF = false → exactSum s.H[s.CI] s.W[s.CI] = (BitVec.ofInt 32 (exactSum s.H[s.CI] s.W[s.CI])).toInt) ∧
    (t.WOVF = false → t.W[s.CI].t0.toInt = exactWeight s.H[s.CI].t0 s.W[s.CI].t0 (resid s.SF q) ∧
      t.W[s.CI].t1.toInt = exactWeight s.H[s.CI].t1 s.W[s.CI].t1 (resid s.SF q) ∧
      t.W[s.CI].t2.toInt = exactWeight s.H[s.CI].t2 s.W[s.CI].t2 (resid s.SF q) ∧
      t.W[s.CI].t3.toInt = exactWeight s.H[s.CI].t3 s.W[s.CI].t3 (resid s.SF q))

/-- From the all-zero predictor the first sample is the contribution alone. -/
def Obligations.ZeroPredictorReturnsTheResidual : Prop :=
  ∀ (sfi : BitVec 4) (q : BitVec 3) (s t : State), s.SF = sfRom sfi → s.H[s.CI] = ⟨0, 0, 0, 0⟩ →
    s.W[s.CI] = ⟨0, 0, 0, 0⟩ → exec (qInstr q) s = .next t →
    ∃ x d : S16, x.toInt = resid s.SF q ∧ d.toInt = resid s.SF q / 16 ∧ t.CHBUF[s.CI] = s.CHBUF[s.CI] ++ [x] ∧
      t.H[s.CI] = ⟨0, 0, 0, x⟩ ∧ t.W[s.CI] = ⟨d, d, d, d⟩ ∧ t.POVF = s.POVF ∧ t.WOVF = s.WOVF

end Datapath

section Assembler

/-- Rule R202: with equally long buffers ASM publishes their interleave, and changes nothing else. -/
def Obligations.AsmInterleavesTheBuffers : Prop :=
  ∀ (s : State) (n : Nat), s.PH = .asm → (∀ c : Fin NCH_MAX, c.val < s.CHANNELS.toNat → s.bufLen c = n) →
    ∃ pcm, exec .asm s = .next { s with PCM := pcm, OUTLEN := pcm.length, PH := .done, STATUS := .done } ∧
      pcm.length = n * s.CHANNELS.toNat ∧
      ∀ (k : Nat) (c : Fin NCH_MAX), k < n → c.val < s.CHANNELS.toNat →
        pcm[k * s.CHANNELS.toNat + c.val]? = s.CHBUF[c][k]?

/-- Rule R201: buffers of different lengths make ASM fail. -/
def Obligations.AsmRejectsUnequalBuffers : Prop :=
  ∀ (s : State) (c d : Fin NCH_MAX), c.val < s.CHANNELS.toNat → d.val < s.CHANNELS.toNat → s.bufLen c ≠ s.bufLen d →
    ∃ t, exec .asm s = .next t ∧ FailsWith .channelLengthMismatch s t

/-- The buffers grow alike in every run, so ASM's check never fails (rules R201, R225). -/
def Obligations.BuffersStayBalanced : Prop :=
  ∀ s t : State, s.PEND = [] → s.Balanced → step s = .next t →
    t.PEND = [] ∧ t.Balanced ∧ (t.ERR = .channelLengthMismatch → s.ERR = .channelLengthMismatch)

/-- Reset establishes the balance of the buffers: all of them are empty (rule R42). -/
def Obligations.ResetIsBalanced : Prop :=
  State.reset.PEND = [] ∧ State.reset.Balanced ∧ ∀ c : Fin NCH_MAX, State.reset.bufLen c = 0

end Assembler

section Failures

/-- Rule R223: a unit after CHDR that the stream does not hold whole is a truncation, no byte left included. -/
def Obligations.TruncatedStreamCauses : Prop :=
  ∀ (s : State) (rest : List HostEvent) (n : Nat), SequencerTurn s rest → s.PEND = [] →
    (s.PH = .fhdr ∨ s.PH = .lms ∨ s.PH = .slc) → s.IN.wf = true → s.EOS = true → unitLength s.PH = some n →
    s.bytesLeft < n → ∃ t, step s = .next t ∧ FailsWith .truncatedStream { s with HOST := rest } t

/-- Rule R62: with bytes missing and the stream not ended, the sequencer waits and nothing changes. That a step then answers
the unchanged state is the model's (log entry 5). -/
def Obligations.WaitingChangesNothing : Prop :=
  ∀ (s : State) (rest : List HostEvent) (n : Nat), SequencerTurn s rest → s.PEND = [] → s.IN.wf = true →
    s.EOS = false → unitLength s.PH = some n → s.bytesLeft < n → step s = .next { s with HOST := rest }

/-- No step of the sequencer is enabled in IDLE, DONE and FAILED (rule R123). That `step` then answers the unchanged state
is the model's (log entry 5). -/
def Obligations.NoStepInEndedPhases : Prop :=
  ∀ (s : State) (rest : List HostEvent), SequencerTurn s rest → s.PEND = [] →
    (s.PH = .idle ∨ s.PH = .done ∨ s.PH = .failed) → step s = .next { s with HOST := rest }

/-- Rules R220, R228 and R229: whatever makes a decode fail, the output is gone, the flags are kept and the code says why.
That after `CapacityExceeded` too the flags are those from before the step is the model's reading (log entry 11). -/
def Obligations.EveryFailureDiscardsTheOutput : Prop :=
  ∀ s t : State, step s = .next t → s.STATUS ≠ .failed → t.STATUS = .failed →
    t.ERR ≠ .none ∧ FailsWith t.ERR { s with HOST := t.HOST } t

/-- Rules R204 and R230: only START and `RESET` change anything of an ended decode. -/
def Obligations.EndedDecodeIsImmutable : Prop :=
  ∀ s t : State, s.PEND = [] → (s.PH = .done ∨ s.PH = .failed) → ¬ hostTakesOver s → step s = .next t →
    t = { s with IN := t.IN, EOS := t.EOS, HOST := t.HOST, REPLIES := t.REPLIES, DRAWS := t.DRAWS }

/-- Rule R238: a unit that would move `POS` beyond its width, or a slice beyond the buffers' capacity, fails instead. What
is counted and when it is checked are the model's (log entries 11 and 12). -/
def Obligations.CapacityExceededCauses : Prop :=
  (∀ (magic : Tag) (total : BitVec 32) (s : State), ¬ s.RoomForBytes 8 →
    ∃ t, exec (.chdr magic total) s = .next t ∧ FailsWith .capacityExceeded s t) ∧
  (∀ (channels : BitVec 8) (rate : BitVec 24) (samples size : BitVec 16) (s : State), ¬ s.RoomForBytes 8 →
    ∃ t, exec (.fhdr channels rate samples size) s = .next t ∧ FailsWith .capacityExceeded s t) ∧
  (∀ (history weights : Taps) (s : State), ¬ s.RoomForBytes 16 →
    ∃ t, exec (.lms history weights) s = .next t ∧ FailsWith .capacityExceeded s t) ∧
  (∀ (sfi : BitVec 4) (codes : List (BitVec 3)) (s : State), codes.length = 20 →
    (¬ s.RoomForBytes 8 ∨ ¬ s.RoomForSamples s.groupLen) →
    ∃ t, exec (.slc sfi codes) s = .next t ∧ FailsWith .capacityExceeded s t)

/-- With the unbounded defaults `CapacityExceeded` is never raised (rule R238). -/
def Obligations.UnboundedNeverExceedsCapacity : Prop :=
  ∀ s t : State, s.CFG.PCM_CAPACITY = none → s.CFG.POS_WIDTH = none → step s = .next t →
    t.ERR = .capacityExceeded → s.ERR = .capacityExceeded

end Failures

section HostMoves

/-- Rule R212: a register read inside its "valid when" window (rule R37) returns the register, `STATUS` and `ERR` as the
numbers of rules R26 and R221, outside it some value, and no read changes anything of the block. -/
def Obligations.RegisterReadsReturnTheRegister : Prop :=
  (∀ (s : State) (rest : List HostEvent) (r : HostReg) (v : Nat), s.HOST = .readReg r :: rest →
    ((r = .STATUS ∧ ((s.STATUS = .idle ∧ v = 0) ∨ (s.STATUS = .busy ∧ v = 1) ∨ (s.STATUS = .done ∧ v = 2) ∨
        (s.STATUS = .failed ∧ v = 3))) ∨
     (r = .ERR ∧ ((s.ERR = .none ∧ v = 0) ∨ (s.ERR = .malformedContainer ∧ v = 1) ∨ (s.ERR = .truncatedStream ∧ v = 2) ∨
        (s.ERR = .channelCountMismatch ∧ v = 3) ∨ (s.ERR = .channelLengthMismatch ∧ v = 4) ∨
        (s.ERR = .capacityExceeded ∧ v = 5))) ∨
     (r = .FLAGS ∧ (s.STATUS = .done ∨ s.STATUS = .failed) ∧ v = s.POVF.toNat + 2 * s.WOVF.toNat) ∨
     (r = .CHANNELS ∧ s.STATUS = .done ∧ v = s.CHANNELS.toNat) ∨ (r = .RATE ∧ s.STATUS = .done ∧ v = s.RATE.toNat) ∨
     (r = .OUTLEN ∧ s.STATUS ≠ .busy ∧ v = s.OUTLEN) ∨ (r = .TOTAL ∧ s.STATUS = .done ∧ v = s.TOTAL.toNat)) →
    step s = .next { s with HOST := rest, REPLIES := .reg r v :: s.REPLIES }) ∧
  (∀ (s : State) (rest : List HostEvent) (r : HostReg), s.HOST = .readReg r :: rest → r ≠ .CMD →
    ∃ v draws, step s = .next { s with HOST := rest, REPLIES := .reg r v :: s.REPLIES, DRAWS := draws })

/-- Rule R213: while `STATUS = DONE` a read of `PCM[k]`, `k < OUTLEN`, returns the word ASM wrote. -/
def Obligations.PcmReadsReturnTheWord : Prop :=
  ∀ (s : State) (rest : List HostEvent) (k : Nat) (v : S16), s.HOST = .readPcm k :: rest → s.STATUS = .done →
    k < s.OUTLEN → s.PCM[k]? = some v → step s = .next { s with HOST := rest, REPLIES := .pcm k v :: s.REPLIES }

/-- A read of one byte of a readable PCM word (rules R65, R213): the byte at the lower bus address is the more significant
one under the big-endian order and the less significant one under the little-endian order, and the byte at the higher address
is the other. That a narrow bus is read in single bytes is the model's (log entry 6). -/
def Obligations.PcmByteReadsFollowTheByteOrder : Prop :=
  ∀ (s : State) (rest : List HostEvent) (k : Nat) (upper : Bool) (v : S16), s.HOST = .readPcmByte k upper :: rest →
    s.STATUS = .done → k < s.OUTLEN → s.PCM[k]? = some v → ∃ b : Byte,
      step s = .next { s with HOST := rest, REPLIES := .pcmByte k upper b :: s.REPLIES } ∧
      (s.CFG.HOST_PCM_BYTE_ORDER = .big → b.toNat = if upper then v.toNat % 256 else v.toNat / 256) ∧
      (s.CFG.HOST_PCM_BYTE_ORDER = .little → b.toNat = if upper then v.toNat / 256 else v.toNat % 256)

/-- The write-only register 0 cannot be read (the fault is the model's, log entry 13), and no read whatever changes the
block's own state (rules R37, R212). -/
def Obligations.ReadsHaveNoSideEffect : Prop :=
  (∀ (s : State) (rest : List HostEvent), s.HOST = .readReg .CMD :: rest → step s = .fault .writeOnlyRead) ∧
  (∀ (s t : State) (rest : List HostEvent) (e : HostEvent),
    ((∃ r, e = .readReg r) ∨ (∃ k, e = .readPcm k) ∨ (∃ k u, e = .readPcmByte k u)) → s.HOST = e :: rest →
    step s = .next t → t = { s with HOST := rest, REPLIES := t.REPLIES, DRAWS := t.DRAWS })

/-- Rule R214: offered bytes take the next offsets in order; what was there stays; nothing else changes. That the stream is
a field of the state is the model's (log entry 3). -/
def Obligations.OfferedBytesTakeTheNextOffsets : Prop :=
  ∀ (s : State) (rest : List HostEvent) (bs : List Byte), s.HOST = .offer bs :: rest → s.EOS = false →
    s.IN.wf = true → ∃ m : Memory, step s = .next { s with HOST := rest, IN := m } ∧ m.wf = true ∧
      (∀ a, a < s.IN.length → m.read a = s.IN.read a) ∧ ∀ k, m.read (s.IN.length + k) = bs[k]?

end HostMoves

section WholeMachine

/-- The invariant of a run is kept by every step. -/
def Obligations.InvariantKeptByEveryStep : Prop :=
  ∀ s t : State, s.Inv → step s = .next t → t.Inv

/-- Reset establishes the invariant; the registers rule R42 leaves unspecified hold the model's zeros (log entry 7). -/
def Obligations.ResetMeetsTheInvariant : Prop := State.reset.Inv

/-- The sticky flags are cleared by START and `RESET` alone (rule R28). -/
def Obligations.FlagsClearedOnlyByStartAndReset : Prop :=
  ∀ s t : State, step s = .next t → ¬ hostTakesOver s → (s.POVF = true → t.POVF = true) ∧ (s.WOVF = true → t.WOVF = true)

/-- Rule R22: apart from START, `RESET` and failure entry, no step touches the registers or the buffer of a channel other
than `CI`. -/
def Obligations.OnlyTheCurrentChannelChanges : Prop :=
  ∀ s t : State, step s = .next t → ¬ hostTakesOver s → (t.PH = .failed → s.PH = .failed) →
    ∀ c : Fin NCH_MAX, c ≠ s.CI → t.H[c] = s.H[c] ∧ t.W[c] = s.W[c] ∧ t.CHBUF[c] = s.CHBUF[c]

/-- The parameters never change (rule R252). -/
def Obligations.ParametersAreConstant : Prop :=
  ∀ s t : State, step s = .next t → t.CFG = s.CFG

/-- Rule R262: once the host has ended the stream, the decode ends, within a number of steps its bytes bound. -/
def Obligations.EndedStreamEndsTheDecode : Prop :=
  ∀ s : State, s.HOST = [] → s.PEND = [] → s.IN.wf = true → s.EOS = true → statusOf s.PH = .busy →
    ∃ t : State, Host.Core.run Sys2Proof.core (s.bytesLeft / 8 + 1) s = .next t ∧ (t.PH = .done ∨ t.PH = .failed)

/-- Rules R216 and R261: the result of a decode does not depend on anything the state held before START. -/
def Obligations.DecodesAreIndependentOfThePast : Prop :=
  ∀ (s t : State) (stream : List Byte) (k : Nat), s.CFG = t.CFG → s.STATUS ≠ .busy → t.STATUS ≠ .busy →
    s.PEND = [] → t.PEND = [] → s.HOST = decodeScript stream → t.HOST = decodeScript stream →
    resultAfter (k + 1) s = resultAfter (k + 1) t

/-- Rule R101: bytes after the last unit have no effect on a decode that ends in `DONE`. -/
def Obligations.TrailingBytesAreIgnored : Prop :=
  ∀ (s : State) (stream extra : List Byte) (k : Nat) (pcm : List S16) (outlen : Nat) (rate : BitVec 32)
    (channels : BitVec 8) (total : BitVec 32) (povf wovf : Bool), s.STATUS ≠ .busy → s.PEND = [] →
    resultAfter (k + 1) { s with HOST := decodeScript stream } = some (.done pcm outlen rate channels total povf wovf) →
    resultAfter (k + 1) { s with HOST := decodeScript (stream ++ extra) } =
      some (.done pcm outlen rate channels total povf wovf)

/-- Rules R222 and R223: a stream consumed to its last byte fails when it is cut short anywhere, with no output. -/
def Obligations.EveryProperPrefixFails : Prop :=
  ∀ (s t : State) (stream : List Byte) (k m : Nat), s.STATUS ≠ .busy → s.PEND = [] →
    Host.Core.run Sys2Proof.core k { s with HOST := decodeScript stream } = .next t → t.STATUS = .done → t.HOST = [] →
    t.POS = stream.length → m < stream.length →
    ∃ j povf wovf, resultAfter j { s with HOST := decodeScript (stream.take m) } =
      some (.failed (if m < 8 then .malformedContainer else .truncatedStream) povf wovf)

end WholeMachine
end

