-- ==== Sys2Proof/Laws/Decode.lean ====
section
/-! SUPPORT. Laws of the big-endian assembly, of the packing of a slice, and of the rows of the slice's fields. -/

namespace Sys2Proof

theorem be_foldl (bs : List Byte) (v : Nat) :
    bs.foldl (fun v b => v * 256 + b.toNat) v = v * 256 ^ bs.length + be bs := by
  induction bs generalizing v with
  | nil => simp [be]
  | cons b bs ih =>
    simp only [List.foldl_cons, List.length_cons, be]
    rw [ih, ih (0 * 256 + b.toNat)]
    ring

@[simp] theorem be_nil : be [] = 0 := rfl

theorem be_cons (b : Byte) (bs : List Byte) : be (b :: bs) = b.toNat * 256 ^ bs.length + be bs := by
  simpa [be] using be_foldl bs b.toNat

theorem be_append (a b : List Byte) : be (a ++ b) = be a * 256 ^ b.length + be b := by
  rw [be, List.foldl_append, be_foldl]; rfl

@[simp] theorem be_single (b : Byte) : be [b] = b.toNat := by simp [be]

theorem be_lt (bs : List Byte) : be bs < 256 ^ bs.length := by
  induction bs with
  | nil => simp
  | cons b bs ih =>
    have hb := b.isLt
    rw [be_cons, List.length_cons, pow_succ]
    nlinarith [Nat.pos_of_ne_zero (pow_ne_zero bs.length (by norm_num : (256 : Nat) ≠ 0))]

@[simp] theorem bytesBE_length (n v : Nat) : (bytesBE n v).length = n := by
  induction n generalizing v with
  | zero => rfl
  | succ n ih => simp [bytesBE, ih]

theorem be_bytesBE (n v : Nat) : be (bytesBE n v) = v % 256 ^ n := by
  induction n generalizing v with
  | zero => simp [bytesBE, Nat.mod_one]
  | succ n ih =>
    rw [bytesBE, be_append, ih]
    simp only [List.length_singleton, pow_one, be_single, BitVec.toNat_ofNat]
    rw [show 256 ^ (n + 1) = 256 * 256 ^ n by ring, Nat.mod_mul]
    omega

theorem be_bytesBE_of_lt {n v : Nat} (h : v < 256 ^ n) : be (bytesBE n v) = v := by
  rw [be_bytesBE, Nat.mod_eq_of_lt h]

/-- The bytes of a run's value are the run: the assembly loses nothing (rule R95). -/
theorem bytesBE_be (bs : List Byte) : bytesBE bs.length (be bs) = bs := by
  induction bs using List.reverseRecOn with
  | nil => rfl
  | append_singleton bs b ih =>
    have hb := b.isLt
    have h1 : (be bs * 256 + b.toNat) / 256 = be bs := by omega
    have h2 : BitVec.ofNat 8 (be bs * 256 + b.toNat) = b := by
      apply BitVec.eq_of_toNat_eq; simp only [BitVec.toNat_ofNat]; omega
    simp [bytesBE, be_append, h1, h2, ih]

/-- A field of a unit is the value of its own bytes, whatever stands before and after it. -/
theorem fieldBE_append (a b c : List Byte) : fieldBE (a ++ (b ++ c)) a.length b.length = be b := by
  simp [fieldBE]

theorem packSlice_append (sfi : BitVec 4) (a b : List (BitVec 3)) :
    packSlice sfi (a ++ b) = b.foldl (fun v q => v * 8 + q.toNat) (packSlice sfi a) := by
  simp [packSlice]

theorem packSlice_snoc (sfi : BitVec 4) (a : List (BitVec 3)) (q : BitVec 3) :
    packSlice sfi (a ++ [q]) = packSlice sfi a * 8 + q.toNat := by
  simp [packSlice]

theorem packSlice_lt (sfi : BitVec 4) (codes : List (BitVec 3)) : packSlice sfi codes < 16 * 8 ^ codes.length := by
  induction codes using List.reverseRecOn with
  | nil => simpa [packSlice] using sfi.isLt
  | append_singleton a q ih =>
    have := q.isLt
    rw [packSlice_snoc, List.length_append, List.length_singleton, pow_succ]
    omega

/-- Dropping the low fields of a packed slice leaves the packing of the others. -/
theorem packSlice_div (sfi : BitVec 4) (a b : List (BitVec 3)) :
    packSlice sfi (a ++ b) / 8 ^ b.length = packSlice sfi a := by
  induction b using List.reverseRecOn with
  | nil => simp
  | append_singleton b q ih =>
    have hq := q.isLt
    rw [← List.append_assoc, packSlice_snoc, List.length_append, List.length_singleton, pow_succ, mul_comm (8 ^ b.length),
      ← Nat.div_div_eq_div_mul]
    rw [show (packSlice sfi (a ++ b) * 8 + q.toNat) / 8 = packSlice sfi (a ++ b) by omega]
    exact ih

/-- The row a 4-bit index selects is read back from its encoding (rule R104). -/
theorem encode_sfInstr (v : BitVec 4) : encode (sfInstr v) = .field (.sfi v) := by revert v; decide

/-- The row a residual code selects is read back from its encoding (rule R104). -/
theorem encode_qInstr (q : BitVec 3) : encode (qInstr q) = .field (.code q) := by revert q; decide

end Sys2Proof
end

