-- ==== Sys2Proof/Laws/State.lean ====
section
/-! SUPPORT. One lemma per field per update: what each named update of the state leaves in each field. -/

namespace Sys2Proof
namespace Machine

@[simp] theorem State.stickFlags_PH (s : State) (p w : Bool) : (s.stickFlags p w).PH = s.PH := rfl
@[simp] theorem State.stickFlags_FI (s : State) (p w : Bool) : (s.stickFlags p w).FI = s.FI := rfl
@[simp] theorem State.stickFlags_SI (s : State) (p w : Bool) : (s.stickFlags p w).SI = s.SI := rfl
@[simp] theorem State.stickFlags_CI (s : State) (p w : Bool) : (s.stickFlags p w).CI = s.CI := rfl
@[simp] theorem State.stickFlags_POS (s : State) (p w : Bool) : (s.stickFlags p w).POS = s.POS := rfl
@[simp] theorem State.stickFlags_STATUS (s : State) (p w : Bool) : (s.stickFlags p w).STATUS = s.STATUS := rfl
@[simp] theorem State.stickFlags_ERR (s : State) (p w : Bool) : (s.stickFlags p w).ERR = s.ERR := rfl
@[simp] theorem State.stickFlags_POVF (s : State) (p w : Bool) : (s.stickFlags p w).POVF = (s.POVF || p) := rfl
@[simp] theorem State.stickFlags_WOVF (s : State) (p w : Bool) : (s.stickFlags p w).WOVF = (s.WOVF || w) := rfl
@[simp] theorem State.stickFlags_TOTAL (s : State) (p w : Bool) : (s.stickFlags p w).TOTAL = s.TOTAL := rfl
@[simp] theorem State.stickFlags_NFRAMES (s : State) (p w : Bool) : (s.stickFlags p w).NFRAMES = s.NFRAMES := rfl
@[simp] theorem State.stickFlags_CHANNELS (s : State) (p w : Bool) : (s.stickFlags p w).CHANNELS = s.CHANNELS := rfl
@[simp] theorem State.stickFlags_RATE (s : State) (p w : Bool) : (s.stickFlags p w).RATE = s.RATE := rfl
@[simp] theorem State.stickFlags_FSAMPLES (s : State) (p w : Bool) : (s.stickFlags p w).FSAMPLES = s.FSAMPLES := rfl
@[simp] theorem State.stickFlags_FSIZE (s : State) (p w : Bool) : (s.stickFlags p w).FSIZE = s.FSIZE := rfl
@[simp] theorem State.stickFlags_NSLICES (s : State) (p w : Bool) : (s.stickFlags p w).NSLICES = s.NSLICES := rfl
@[simp] theorem State.stickFlags_OUTLEN (s : State) (p w : Bool) : (s.stickFlags p w).OUTLEN = s.OUTLEN := rfl
@[simp] theorem State.stickFlags_H (s : State) (p w : Bool) : (s.stickFlags p w).H = s.H := rfl
@[simp] theorem State.stickFlags_W (s : State) (p w : Bool) : (s.stickFlags p w).W = s.W := rfl
@[simp] theorem State.stickFlags_CHBUF (s : State) (p w : Bool) : (s.stickFlags p w).CHBUF = s.CHBUF := rfl
@[simp] theorem State.stickFlags_PCM (s : State) (p w : Bool) : (s.stickFlags p w).PCM = s.PCM := rfl
@[simp] theorem State.stickFlags_IN (s : State) (p w : Bool) : (s.stickFlags p w).IN = s.IN := rfl
@[simp] theorem State.stickFlags_EOS (s : State) (p w : Bool) : (s.stickFlags p w).EOS = s.EOS := rfl
@[simp] theorem State.stickFlags_CFG (s : State) (p w : Bool) : (s.stickFlags p w).CFG = s.CFG := rfl
@[simp] theorem State.stickFlags_SF (s : State) (p w : Bool) : (s.stickFlags p w).SF = s.SF := rfl
@[simp] theorem State.stickFlags_PEND (s : State) (p w : Bool) : (s.stickFlags p w).PEND = s.PEND := rfl
@[simp] theorem State.stickFlags_HOST (s : State) (p w : Bool) : (s.stickFlags p w).HOST = s.HOST := rfl
@[simp] theorem State.stickFlags_REPLIES (s : State) (p w : Bool) : (s.stickFlags p w).REPLIES = s.REPLIES := rfl
@[simp] theorem State.stickFlags_DRAWS (s : State) (p w : Bool) : (s.stickFlags p w).DRAWS = s.DRAWS := rfl

@[simp] theorem State.consume_PH (s : State) (n : Nat) : (s.consume n).PH = s.PH := rfl
@[simp] theorem State.consume_FI (s : State) (n : Nat) : (s.consume n).FI = s.FI := rfl
@[simp] theorem State.consume_SI (s : State) (n : Nat) : (s.consume n).SI = s.SI := rfl
@[simp] theorem State.consume_CI (s : State) (n : Nat) : (s.consume n).CI = s.CI := rfl
@[simp] theorem State.consume_POS (s : State) (n : Nat) : (s.consume n).POS = s.POS + n := rfl
@[simp] theorem State.consume_STATUS (s : State) (n : Nat) : (s.consume n).STATUS = s.STATUS := rfl
@[simp] theorem State.consume_ERR (s : State) (n : Nat) : (s.consume n).ERR = s.ERR := rfl
@[simp] theorem State.consume_POVF (s : State) (n : Nat) : (s.consume n).POVF = s.POVF := rfl
@[simp] theorem State.consume_WOVF (s : State) (n : Nat) : (s.consume n).WOVF = s.WOVF := rfl
@[simp] theorem State.consume_TOTAL (s : State) (n : Nat) : (s.consume n).TOTAL = s.TOTAL := rfl
@[simp] theorem State.consume_NFRAMES (s : State) (n : Nat) : (s.consume n).NFRAMES = s.NFRAMES := rfl
@[simp] theorem State.consume_CHANNELS (s : State) (n : Nat) : (s.consume n).CHANNELS = s.CHANNELS := rfl
@[simp] theorem State.consume_RATE (s : State) (n : Nat) : (s.consume n).RATE = s.RATE := rfl
@[simp] theorem State.consume_FSAMPLES (s : State) (n : Nat) : (s.consume n).FSAMPLES = s.FSAMPLES := rfl
@[simp] theorem State.consume_FSIZE (s : State) (n : Nat) : (s.consume n).FSIZE = s.FSIZE := rfl
@[simp] theorem State.consume_NSLICES (s : State) (n : Nat) : (s.consume n).NSLICES = s.NSLICES := rfl
@[simp] theorem State.consume_OUTLEN (s : State) (n : Nat) : (s.consume n).OUTLEN = s.OUTLEN := rfl
@[simp] theorem State.consume_H (s : State) (n : Nat) : (s.consume n).H = s.H := rfl
@[simp] theorem State.consume_W (s : State) (n : Nat) : (s.consume n).W = s.W := rfl
@[simp] theorem State.consume_CHBUF (s : State) (n : Nat) : (s.consume n).CHBUF = s.CHBUF := rfl
@[simp] theorem State.consume_PCM (s : State) (n : Nat) : (s.consume n).PCM = s.PCM := rfl
@[simp] theorem State.consume_IN (s : State) (n : Nat) : (s.consume n).IN = s.IN := rfl
@[simp] theorem State.consume_EOS (s : State) (n : Nat) : (s.consume n).EOS = s.EOS := rfl
@[simp] theorem State.consume_CFG (s : State) (n : Nat) : (s.consume n).CFG = s.CFG := rfl
@[simp] theorem State.consume_SF (s : State) (n : Nat) : (s.consume n).SF = s.SF := rfl
@[simp] theorem State.consume_PEND (s : State) (n : Nat) : (s.consume n).PEND = s.PEND := rfl
@[simp] theorem State.consume_HOST (s : State) (n : Nat) : (s.consume n).HOST = s.HOST := rfl
@[simp] theorem State.consume_REPLIES (s : State) (n : Nat) : (s.consume n).REPLIES = s.REPLIES := rfl
@[simp] theorem State.consume_DRAWS (s : State) (n : Nat) : (s.consume n).DRAWS = s.DRAWS := rfl

@[simp] theorem State.setChannel_PH (s : State) (h w : Taps) : (s.setChannel h w).PH = s.PH := rfl
@[simp] theorem State.setChannel_FI (s : State) (h w : Taps) : (s.setChannel h w).FI = s.FI := rfl
@[simp] theorem State.setChannel_SI (s : State) (h w : Taps) : (s.setChannel h w).SI = s.SI := rfl
@[simp] theorem State.setChannel_CI (s : State) (h w : Taps) : (s.setChannel h w).CI = s.CI := rfl
@[simp] theorem State.setChannel_POS (s : State) (h w : Taps) : (s.setChannel h w).POS = s.POS := rfl
@[simp] theorem State.setChannel_STATUS (s : State) (h w : Taps) : (s.setChannel h w).STATUS = s.STATUS := rfl
@[simp] theorem State.setChannel_ERR (s : State) (h w : Taps) : (s.setChannel h w).ERR = s.ERR := rfl
@[simp] theorem State.setChannel_POVF (s : State) (h w : Taps) : (s.setChannel h w).POVF = s.POVF := rfl
@[simp] theorem State.setChannel_WOVF (s : State) (h w : Taps) : (s.setChannel h w).WOVF = s.WOVF := rfl
@[simp] theorem State.setChannel_TOTAL (s : State) (h w : Taps) : (s.setChannel h w).TOTAL = s.TOTAL := rfl
@[simp] theorem State.setChannel_NFRAMES (s : State) (h w : Taps) : (s.setChannel h w).NFRAMES = s.NFRAMES := rfl
@[simp] theorem State.setChannel_CHANNELS (s : State) (h w : Taps) : (s.setChannel h w).CHANNELS = s.CHANNELS := rfl
@[simp] theorem State.setChannel_RATE (s : State) (h w : Taps) : (s.setChannel h w).RATE = s.RATE := rfl
@[simp] theorem State.setChannel_FSAMPLES (s : State) (h w : Taps) : (s.setChannel h w).FSAMPLES = s.FSAMPLES := rfl
@[simp] theorem State.setChannel_FSIZE (s : State) (h w : Taps) : (s.setChannel h w).FSIZE = s.FSIZE := rfl
@[simp] theorem State.setChannel_NSLICES (s : State) (h w : Taps) : (s.setChannel h w).NSLICES = s.NSLICES := rfl
@[simp] theorem State.setChannel_OUTLEN (s : State) (h w : Taps) : (s.setChannel h w).OUTLEN = s.OUTLEN := rfl
@[simp] theorem State.setChannel_H (s : State) (h w : Taps) : (s.setChannel h w).H = s.H.set s.CI h := rfl
@[simp] theorem State.setChannel_W (s : State) (h w : Taps) : (s.setChannel h w).W = s.W.set s.CI w := rfl
@[simp] theorem State.setChannel_CHBUF (s : State) (h w : Taps) : (s.setChannel h w).CHBUF = s.CHBUF := rfl
@[simp] theorem State.setChannel_PCM (s : State) (h w : Taps) : (s.setChannel h w).PCM = s.PCM := rfl
@[simp] theorem State.setChannel_IN (s : State) (h w : Taps) : (s.setChannel h w).IN = s.IN := rfl
@[simp] theorem State.setChannel_EOS (s : State) (h w : Taps) : (s.setChannel h w).EOS = s.EOS := rfl
@[simp] theorem State.setChannel_CFG (s : State) (h w : Taps) : (s.setChannel h w).CFG = s.CFG := rfl
@[simp] theorem State.setChannel_SF (s : State) (h w : Taps) : (s.setChannel h w).SF = s.SF := rfl
@[simp] theorem State.setChannel_PEND (s : State) (h w : Taps) : (s.setChannel h w).PEND = s.PEND := rfl
@[simp] theorem State.setChannel_HOST (s : State) (h w : Taps) : (s.setChannel h w).HOST = s.HOST := rfl
@[simp] theorem State.setChannel_REPLIES (s : State) (h w : Taps) : (s.setChannel h w).REPLIES = s.REPLIES := rfl
@[simp] theorem State.setChannel_DRAWS (s : State) (h w : Taps) : (s.setChannel h w).DRAWS = s.DRAWS := rfl

@[simp] theorem State.append_PH (s : State) (v : S16) : (s.append v).PH = s.PH := rfl
@[simp] theorem State.append_FI (s : State) (v : S16) : (s.append v).FI = s.FI := rfl
@[simp] theorem State.append_SI (s : State) (v : S16) : (s.append v).SI = s.SI := rfl
@[simp] theorem State.append_CI (s : State) (v : S16) : (s.append v).CI = s.CI := rfl
@[simp] theorem State.append_POS (s : State) (v : S16) : (s.append v).POS = s.POS := rfl
@[simp] theorem State.append_STATUS (s : State) (v : S16) : (s.append v).STATUS = s.STATUS := rfl
@[simp] theorem State.append_ERR (s : State) (v : S16) : (s.append v).ERR = s.ERR := rfl
@[simp] theorem State.append_POVF (s : State) (v : S16) : (s.append v).POVF = s.POVF := rfl
@[simp] theorem State.append_WOVF (s : State) (v : S16) : (s.append v).WOVF = s.WOVF := rfl
@[simp] theorem State.append_TOTAL (s : State) (v : S16) : (s.append v).TOTAL = s.TOTAL := rfl
@[simp] theorem State.append_NFRAMES (s : State) (v : S16) : (s.append v).NFRAMES = s.NFRAMES := rfl
@[simp] theorem State.append_CHANNELS (s : State) (v : S16) : (s.append v).CHANNELS = s.CHANNELS := rfl
@[simp] theorem State.append_RATE (s : State) (v : S16) : (s.append v).RATE = s.RATE := rfl
@[simp] theorem State.append_FSAMPLES (s : State) (v : S16) : (s.append v).FSAMPLES = s.FSAMPLES := rfl
@[simp] theorem State.append_FSIZE (s : State) (v : S16) : (s.append v).FSIZE = s.FSIZE := rfl
@[simp] theorem State.append_NSLICES (s : State) (v : S16) : (s.append v).NSLICES = s.NSLICES := rfl
@[simp] theorem State.append_OUTLEN (s : State) (v : S16) : (s.append v).OUTLEN = s.OUTLEN := rfl
@[simp] theorem State.append_H (s : State) (v : S16) : (s.append v).H = s.H := rfl
@[simp] theorem State.append_W (s : State) (v : S16) : (s.append v).W = s.W := rfl
@[simp] theorem State.append_CHBUF (s : State) (v : S16) : (s.append v).CHBUF = s.CHBUF.set s.CI (s.CHBUF[s.CI] ++ [v]) := rfl
@[simp] theorem State.append_PCM (s : State) (v : S16) : (s.append v).PCM = s.PCM := rfl
@[simp] theorem State.append_IN (s : State) (v : S16) : (s.append v).IN = s.IN := rfl
@[simp] theorem State.append_EOS (s : State) (v : S16) : (s.append v).EOS = s.EOS := rfl
@[simp] theorem State.append_CFG (s : State) (v : S16) : (s.append v).CFG = s.CFG := rfl
@[simp] theorem State.append_SF (s : State) (v : S16) : (s.append v).SF = s.SF := rfl
@[simp] theorem State.append_PEND (s : State) (v : S16) : (s.append v).PEND = s.PEND := rfl
@[simp] theorem State.append_HOST (s : State) (v : S16) : (s.append v).HOST = s.HOST := rfl
@[simp] theorem State.append_REPLIES (s : State) (v : S16) : (s.append v).REPLIES = s.REPLIES := rfl
@[simp] theorem State.append_DRAWS (s : State) (v : S16) : (s.append v).DRAWS = s.DRAWS := rfl

@[simp] theorem latchScale_PH (v : BitVec 4) (s : State) : (latchScale v s).PH = s.PH := rfl
@[simp] theorem latchScale_FI (v : BitVec 4) (s : State) : (latchScale v s).FI = s.FI := rfl
@[simp] theorem latchScale_SI (v : BitVec 4) (s : State) : (latchScale v s).SI = s.SI := rfl
@[simp] theorem latchScale_CI (v : BitVec 4) (s : State) : (latchScale v s).CI = s.CI := rfl
@[simp] theorem latchScale_POS (v : BitVec 4) (s : State) : (latchScale v s).POS = s.POS := rfl
@[simp] theorem latchScale_STATUS (v : BitVec 4) (s : State) : (latchScale v s).STATUS = s.STATUS := rfl
@[simp] theorem latchScale_ERR (v : BitVec 4) (s : State) : (latchScale v s).ERR = s.ERR := rfl
@[simp] theorem latchScale_POVF (v : BitVec 4) (s : State) : (latchScale v s).POVF = s.POVF := rfl
@[simp] theorem latchScale_WOVF (v : BitVec 4) (s : State) : (latchScale v s).WOVF = s.WOVF := rfl
@[simp] theorem latchScale_TOTAL (v : BitVec 4) (s : State) : (latchScale v s).TOTAL = s.TOTAL := rfl
@[simp] theorem latchScale_NFRAMES (v : BitVec 4) (s : State) : (latchScale v s).NFRAMES = s.NFRAMES := rfl
@[simp] theorem latchScale_CHANNELS (v : BitVec 4) (s : State) : (latchScale v s).CHANNELS = s.CHANNELS := rfl
@[simp] theorem latchScale_RATE (v : BitVec 4) (s : State) : (latchScale v s).RATE = s.RATE := rfl
@[simp] theorem latchScale_FSAMPLES (v : BitVec 4) (s : State) : (latchScale v s).FSAMPLES = s.FSAMPLES := rfl
@[simp] theorem latchScale_FSIZE (v : BitVec 4) (s : State) : (latchScale v s).FSIZE = s.FSIZE := rfl
@[simp] theorem latchScale_NSLICES (v : BitVec 4) (s : State) : (latchScale v s).NSLICES = s.NSLICES := rfl
@[simp] theorem latchScale_OUTLEN (v : BitVec 4) (s : State) : (latchScale v s).OUTLEN = s.OUTLEN := rfl
@[simp] theorem latchScale_H (v : BitVec 4) (s : State) : (latchScale v s).H = s.H := rfl
@[simp] theorem latchScale_W (v : BitVec 4) (s : State) : (latchScale v s).W = s.W := rfl
@[simp] theorem latchScale_CHBUF (v : BitVec 4) (s : State) : (latchScale v s).CHBUF = s.CHBUF := rfl
@[simp] theorem latchScale_PCM (v : BitVec 4) (s : State) : (latchScale v s).PCM = s.PCM := rfl
@[simp] theorem latchScale_IN (v : BitVec 4) (s : State) : (latchScale v s).IN = s.IN := rfl
@[simp] theorem latchScale_EOS (v : BitVec 4) (s : State) : (latchScale v s).EOS = s.EOS := rfl
@[simp] theorem latchScale_CFG (v : BitVec 4) (s : State) : (latchScale v s).CFG = s.CFG := rfl
@[simp] theorem latchScale_SF (v : BitVec 4) (s : State) : (latchScale v s).SF = sfRom v := rfl
@[simp] theorem latchScale_PEND (v : BitVec 4) (s : State) : (latchScale v s).PEND = s.PEND := rfl
@[simp] theorem latchScale_HOST (v : BitVec 4) (s : State) : (latchScale v s).HOST = s.HOST := rfl
@[simp] theorem latchScale_REPLIES (v : BitVec 4) (s : State) : (latchScale v s).REPLIES = s.REPLIES := rfl
@[simp] theorem latchScale_DRAWS (v : BitVec 4) (s : State) : (latchScale v s).DRAWS = s.DRAWS := rfl

@[simp] theorem replyKnown_PH (s : State) (r : Reply) : (replyKnown s r).PH = s.PH := rfl
@[simp] theorem replyKnown_FI (s : State) (r : Reply) : (replyKnown s r).FI = s.FI := rfl
@[simp] theorem replyKnown_SI (s : State) (r : Reply) : (replyKnown s r).SI = s.SI := rfl
@[simp] theorem replyKnown_CI (s : State) (r : Reply) : (replyKnown s r).CI = s.CI := rfl
@[simp] theorem replyKnown_POS (s : State) (r : Reply) : (replyKnown s r).POS = s.POS := rfl
@[simp] theorem replyKnown_STATUS (s : State) (r : Reply) : (replyKnown s r).STATUS = s.STATUS := rfl
@[simp] theorem replyKnown_ERR (s : State) (r : Reply) : (replyKnown s r).ERR = s.ERR := rfl
@[simp] theorem replyKnown_POVF (s : State) (r : Reply) : (replyKnown s r).POVF = s.POVF := rfl
@[simp] theorem replyKnown_WOVF (s : State) (r : Reply) : (replyKnown s r).WOVF = s.WOVF := rfl
@[simp] theorem replyKnown_TOTAL (s : State) (r : Reply) : (replyKnown s r).TOTAL = s.TOTAL := rfl
@[simp] theorem replyKnown_NFRAMES (s : State) (r : Reply) : (replyKnown s r).NFRAMES = s.NFRAMES := rfl
@[simp] theorem replyKnown_CHANNELS (s : State) (r : Reply) : (replyKnown s r).CHANNELS = s.CHANNELS := rfl
@[simp] theorem replyKnown_RATE (s : State) (r : Reply) : (replyKnown s r).RATE = s.RATE := rfl
@[simp] theorem replyKnown_FSAMPLES (s : State) (r : Reply) : (replyKnown s r).FSAMPLES = s.FSAMPLES := rfl
@[simp] theorem replyKnown_FSIZE (s : State) (r : Reply) : (replyKnown s r).FSIZE = s.FSIZE := rfl
@[simp] theorem replyKnown_NSLICES (s : State) (r : Reply) : (replyKnown s r).NSLICES = s.NSLICES := rfl
@[simp] theorem replyKnown_OUTLEN (s : State) (r : Reply) : (replyKnown s r).OUTLEN = s.OUTLEN := rfl
@[simp] theorem replyKnown_H (s : State) (r : Reply) : (replyKnown s r).H = s.H := rfl
@[simp] theorem replyKnown_W (s : State) (r : Reply) : (replyKnown s r).W = s.W := rfl
@[simp] theorem replyKnown_CHBUF (s : State) (r : Reply) : (replyKnown s r).CHBUF = s.CHBUF := rfl
@[simp] theorem replyKnown_PCM (s : State) (r : Reply) : (replyKnown s r).PCM = s.PCM := rfl
@[simp] theorem replyKnown_IN (s : State) (r : Reply) : (replyKnown s r).IN = s.IN := rfl
@[simp] theorem replyKnown_EOS (s : State) (r : Reply) : (replyKnown s r).EOS = s.EOS := rfl
@[simp] theorem replyKnown_CFG (s : State) (r : Reply) : (replyKnown s r).CFG = s.CFG := rfl
@[simp] theorem replyKnown_SF (s : State) (r : Reply) : (replyKnown s r).SF = s.SF := rfl
@[simp] theorem replyKnown_PEND (s : State) (r : Reply) : (replyKnown s r).PEND = s.PEND := rfl
@[simp] theorem replyKnown_HOST (s : State) (r : Reply) : (replyKnown s r).HOST = s.HOST := rfl
@[simp] theorem replyKnown_REPLIES (s : State) (r : Reply) : (replyKnown s r).REPLIES = r :: s.REPLIES := rfl
@[simp] theorem replyKnown_DRAWS (s : State) (r : Reply) : (replyKnown s r).DRAWS = s.DRAWS := rfl

@[simp] theorem replyFree_PH (s : State) (r : Reply) : (replyFree s r).PH = s.PH := rfl
@[simp] theorem replyFree_FI (s : State) (r : Reply) : (replyFree s r).FI = s.FI := rfl
@[simp] theorem replyFree_SI (s : State) (r : Reply) : (replyFree s r).SI = s.SI := rfl
@[simp] theorem replyFree_CI (s : State) (r : Reply) : (replyFree s r).CI = s.CI := rfl
@[simp] theorem replyFree_POS (s : State) (r : Reply) : (replyFree s r).POS = s.POS := rfl
@[simp] theorem replyFree_STATUS (s : State) (r : Reply) : (replyFree s r).STATUS = s.STATUS := rfl
@[simp] theorem replyFree_ERR (s : State) (r : Reply) : (replyFree s r).ERR = s.ERR := rfl
@[simp] theorem replyFree_POVF (s : State) (r : Reply) : (replyFree s r).POVF = s.POVF := rfl
@[simp] theorem replyFree_WOVF (s : State) (r : Reply) : (replyFree s r).WOVF = s.WOVF := rfl
@[simp] theorem replyFree_TOTAL (s : State) (r : Reply) : (replyFree s r).TOTAL = s.TOTAL := rfl
@[simp] theorem replyFree_NFRAMES (s : State) (r : Reply) : (replyFree s r).NFRAMES = s.NFRAMES := rfl
@[simp] theorem replyFree_CHANNELS (s : State) (r : Reply) : (replyFree s r).CHANNELS = s.CHANNELS := rfl
@[simp] theorem replyFree_RATE (s : State) (r : Reply) : (replyFree s r).RATE = s.RATE := rfl
@[simp] theorem replyFree_FSAMPLES (s : State) (r : Reply) : (replyFree s r).FSAMPLES = s.FSAMPLES := rfl
@[simp] theorem replyFree_FSIZE (s : State) (r : Reply) : (replyFree s r).FSIZE = s.FSIZE := rfl
@[simp] theorem replyFree_NSLICES (s : State) (r : Reply) : (replyFree s r).NSLICES = s.NSLICES := rfl
@[simp] theorem replyFree_OUTLEN (s : State) (r : Reply) : (replyFree s r).OUTLEN = s.OUTLEN := rfl
@[simp] theorem replyFree_H (s : State) (r : Reply) : (replyFree s r).H = s.H := rfl
@[simp] theorem replyFree_W (s : State) (r : Reply) : (replyFree s r).W = s.W := rfl
@[simp] theorem replyFree_CHBUF (s : State) (r : Reply) : (replyFree s r).CHBUF = s.CHBUF := rfl
@[simp] theorem replyFree_PCM (s : State) (r : Reply) : (replyFree s r).PCM = s.PCM := rfl
@[simp] theorem replyFree_IN (s : State) (r : Reply) : (replyFree s r).IN = s.IN := rfl
@[simp] theorem replyFree_EOS (s : State) (r : Reply) : (replyFree s r).EOS = s.EOS := rfl
@[simp] theorem replyFree_CFG (s : State) (r : Reply) : (replyFree s r).CFG = s.CFG := rfl
@[simp] theorem replyFree_SF (s : State) (r : Reply) : (replyFree s r).SF = s.SF := rfl
@[simp] theorem replyFree_PEND (s : State) (r : Reply) : (replyFree s r).PEND = s.PEND := rfl
@[simp] theorem replyFree_HOST (s : State) (r : Reply) : (replyFree s r).HOST = s.HOST := rfl
@[simp] theorem replyFree_REPLIES (s : State) (r : Reply) : (replyFree s r).REPLIES = r :: s.REPLIES := rfl
@[simp] theorem replyFree_DRAWS (s : State) (r : Reply) : (replyFree s r).DRAWS = s.DRAWS + 1 := rfl

@[simp] theorem endStream_PH (s : State) : (endStream s).PH = s.PH := rfl
@[simp] theorem endStream_FI (s : State) : (endStream s).FI = s.FI := rfl
@[simp] theorem endStream_SI (s : State) : (endStream s).SI = s.SI := rfl
@[simp] theorem endStream_CI (s : State) : (endStream s).CI = s.CI := rfl
@[simp] theorem endStream_POS (s : State) : (endStream s).POS = s.POS := rfl
@[simp] theorem endStream_STATUS (s : State) : (endStream s).STATUS = s.STATUS := rfl
@[simp] theorem endStream_ERR (s : State) : (endStream s).ERR = s.ERR := rfl
@[simp] theorem endStream_POVF (s : State) : (endStream s).POVF = s.POVF := rfl
@[simp] theorem endStream_WOVF (s : State) : (endStream s).WOVF = s.WOVF := rfl
@[simp] theorem endStream_TOTAL (s : State) : (endStream s).TOTAL = s.TOTAL := rfl
@[simp] theorem endStream_NFRAMES (s : State) : (endStream s).NFRAMES = s.NFRAMES := rfl
@[simp] theorem endStream_CHANNELS (s : State) : (endStream s).CHANNELS = s.CHANNELS := rfl
@[simp] theorem endStream_RATE (s : State) : (endStream s).RATE = s.RATE := rfl
@[simp] theorem endStream_FSAMPLES (s : State) : (endStream s).FSAMPLES = s.FSAMPLES := rfl
@[simp] theorem endStream_FSIZE (s : State) : (endStream s).FSIZE = s.FSIZE := rfl
@[simp] theorem endStream_NSLICES (s : State) : (endStream s).NSLICES = s.NSLICES := rfl
@[simp] theorem endStream_OUTLEN (s : State) : (endStream s).OUTLEN = s.OUTLEN := rfl
@[simp] theorem endStream_H (s : State) : (endStream s).H = s.H := rfl
@[simp] theorem endStream_W (s : State) : (endStream s).W = s.W := rfl
@[simp] theorem endStream_CHBUF (s : State) : (endStream s).CHBUF = s.CHBUF := rfl
@[simp] theorem endStream_PCM (s : State) : (endStream s).PCM = s.PCM := rfl
@[simp] theorem endStream_IN (s : State) : (endStream s).IN = s.IN := rfl
@[simp] theorem endStream_EOS (s : State) : (endStream s).EOS = true := rfl
@[simp] theorem endStream_CFG (s : State) : (endStream s).CFG = s.CFG := rfl
@[simp] theorem endStream_SF (s : State) : (endStream s).SF = s.SF := rfl
@[simp] theorem endStream_PEND (s : State) : (endStream s).PEND = s.PEND := rfl
@[simp] theorem endStream_HOST (s : State) : (endStream s).HOST = s.HOST := rfl
@[simp] theorem endStream_REPLIES (s : State) : (endStream s).REPLIES = s.REPLIES := rfl
@[simp] theorem endStream_DRAWS (s : State) : (endStream s).DRAWS = s.DRAWS := rfl

@[simp] theorem raise_PH (x : ErrCode) (s : State) : (raise x s).PH = .failed := rfl
@[simp] theorem raise_POS (x : ErrCode) (s : State) : (raise x s).POS = if x = .channelCountMismatch then s.POS else Config.freePOS s.DRAWS := rfl
@[simp] theorem raise_STATUS (x : ErrCode) (s : State) : (raise x s).STATUS = .failed := rfl
@[simp] theorem raise_ERR (x : ErrCode) (s : State) : (raise x s).ERR = x := rfl
@[simp] theorem raise_POVF (x : ErrCode) (s : State) : (raise x s).POVF = s.POVF := rfl
@[simp] theorem raise_WOVF (x : ErrCode) (s : State) : (raise x s).WOVF = s.WOVF := rfl
@[simp] theorem raise_OUTLEN (x : ErrCode) (s : State) : (raise x s).OUTLEN = 0 := rfl
@[simp] theorem raise_CHBUF (x : ErrCode) (s : State) : (raise x s).CHBUF = Vector.replicate NCH_MAX [] := rfl
@[simp] theorem raise_PCM (x : ErrCode) (s : State) : (raise x s).PCM = [] := rfl
@[simp] theorem raise_IN (x : ErrCode) (s : State) : (raise x s).IN = s.IN := rfl
@[simp] theorem raise_EOS (x : ErrCode) (s : State) : (raise x s).EOS = s.EOS := rfl
@[simp] theorem raise_CFG (x : ErrCode) (s : State) : (raise x s).CFG = s.CFG := rfl
@[simp] theorem raise_SF (x : ErrCode) (s : State) : (raise x s).SF = 0 := rfl
@[simp] theorem raise_PEND (x : ErrCode) (s : State) : (raise x s).PEND = [] := rfl
@[simp] theorem raise_HOST (x : ErrCode) (s : State) : (raise x s).HOST = s.HOST := rfl
@[simp] theorem raise_REPLIES (x : ErrCode) (s : State) : (raise x s).REPLIES = s.REPLIES := rfl
@[simp] theorem raise_DRAWS (x : ErrCode) (s : State) : (raise x s).DRAWS = s.DRAWS + 1 := rfl

@[simp] theorem startDecode_PH (s : State) : (startDecode s).PH = .chdr := rfl
@[simp] theorem startDecode_FI (s : State) : (startDecode s).FI = 0 := rfl
@[simp] theorem startDecode_SI (s : State) : (startDecode s).SI = 0 := rfl
@[simp] theorem startDecode_CI (s : State) : (startDecode s).CI = 0 := rfl
@[simp] theorem startDecode_POS (s : State) : (startDecode s).POS = 0 := rfl
@[simp] theorem startDecode_STATUS (s : State) : (startDecode s).STATUS = .busy := rfl
@[simp] theorem startDecode_ERR (s : State) : (startDecode s).ERR = .none := rfl
@[simp] theorem startDecode_POVF (s : State) : (startDecode s).POVF = false := rfl
@[simp] theorem startDecode_WOVF (s : State) : (startDecode s).WOVF = false := rfl
@[simp] theorem startDecode_TOTAL (s : State) : (startDecode s).TOTAL = s.TOTAL := rfl
@[simp] theorem startDecode_NFRAMES (s : State) : (startDecode s).NFRAMES = s.NFRAMES := rfl
@[simp] theorem startDecode_CHANNELS (s : State) : (startDecode s).CHANNELS = s.CHANNELS := rfl
@[simp] theorem startDecode_RATE (s : State) : (startDecode s).RATE = s.RATE := rfl
@[simp] theorem startDecode_FSAMPLES (s : State) : (startDecode s).FSAMPLES = s.FSAMPLES := rfl
@[simp] theorem startDecode_FSIZE (s : State) : (startDecode s).FSIZE = s.FSIZE := rfl
@[simp] theorem startDecode_NSLICES (s : State) : (startDecode s).NSLICES = s.NSLICES := rfl
@[simp] theorem startDecode_OUTLEN (s : State) : (startDecode s).OUTLEN = 0 := rfl
@[simp] theorem startDecode_H (s : State) : (startDecode s).H = s.H := rfl
@[simp] theorem startDecode_W (s : State) : (startDecode s).W = s.W := rfl
@[simp] theorem startDecode_CHBUF (s : State) : (startDecode s).CHBUF = Vector.replicate NCH_MAX [] := rfl
@[simp] theorem startDecode_PCM (s : State) : (startDecode s).PCM = [] := rfl
@[simp] theorem startDecode_IN (s : State) : (startDecode s).IN = [] := rfl
@[simp] theorem startDecode_EOS (s : State) : (startDecode s).EOS = false := rfl
@[simp] theorem startDecode_CFG (s : State) : (startDecode s).CFG = s.CFG := rfl
@[simp] theorem startDecode_SF (s : State) : (startDecode s).SF = s.SF := rfl
@[simp] theorem startDecode_PEND (s : State) : (startDecode s).PEND = s.PEND := rfl
@[simp] theorem startDecode_HOST (s : State) : (startDecode s).HOST = s.HOST := rfl
@[simp] theorem startDecode_REPLIES (s : State) : (startDecode s).REPLIES = s.REPLIES := rfl
@[simp] theorem startDecode_DRAWS (s : State) : (startDecode s).DRAWS = s.DRAWS := rfl

@[simp] theorem resetBlock_PH (s : State) : (resetBlock s).PH = State.reset.PH := rfl
@[simp] theorem resetBlock_FI (s : State) : (resetBlock s).FI = State.reset.FI := rfl
@[simp] theorem resetBlock_SI (s : State) : (resetBlock s).SI = State.reset.SI := rfl
@[simp] theorem resetBlock_CI (s : State) : (resetBlock s).CI = State.reset.CI := rfl
@[simp] theorem resetBlock_POS (s : State) : (resetBlock s).POS = State.reset.POS := rfl
@[simp] theorem resetBlock_STATUS (s : State) : (resetBlock s).STATUS = State.reset.STATUS := rfl
@[simp] theorem resetBlock_ERR (s : State) : (resetBlock s).ERR = State.reset.ERR := rfl
@[simp] theorem resetBlock_POVF (s : State) : (resetBlock s).POVF = State.reset.POVF := rfl
@[simp] theorem resetBlock_WOVF (s : State) : (resetBlock s).WOVF = State.reset.WOVF := rfl
@[simp] theorem resetBlock_TOTAL (s : State) : (resetBlock s).TOTAL = State.reset.TOTAL := rfl
@[simp] theorem resetBlock_NFRAMES (s : State) : (resetBlock s).NFRAMES = State.reset.NFRAMES := rfl
@[simp] theorem resetBlock_CHANNELS (s : State) : (resetBlock s).CHANNELS = State.reset.CHANNELS := rfl
@[simp] theorem resetBlock_RATE (s : State) : (resetBlock s).RATE = State.reset.RATE := rfl
@[simp] theorem resetBlock_FSAMPLES (s : State) : (resetBlock s).FSAMPLES = State.reset.FSAMPLES := rfl
@[simp] theorem resetBlock_FSIZE (s : State) : (resetBlock s).FSIZE = State.reset.FSIZE := rfl
@[simp] theorem resetBlock_NSLICES (s : State) : (resetBlock s).NSLICES = State.reset.NSLICES := rfl
@[simp] theorem resetBlock_OUTLEN (s : State) : (resetBlock s).OUTLEN = State.reset.OUTLEN := rfl
@[simp] theorem resetBlock_H (s : State) : (resetBlock s).H = State.reset.H := rfl
@[simp] theorem resetBlock_W (s : State) : (resetBlock s).W = State.reset.W := rfl
@[simp] theorem resetBlock_CHBUF (s : State) : (resetBlock s).CHBUF = State.reset.CHBUF := rfl
@[simp] theorem resetBlock_PCM (s : State) : (resetBlock s).PCM = State.reset.PCM := rfl
@[simp] theorem resetBlock_IN (s : State) : (resetBlock s).IN = State.reset.IN := rfl
@[simp] theorem resetBlock_EOS (s : State) : (resetBlock s).EOS = State.reset.EOS := rfl
@[simp] theorem resetBlock_CFG (s : State) : (resetBlock s).CFG = s.CFG := rfl
@[simp] theorem resetBlock_SF (s : State) : (resetBlock s).SF = State.reset.SF := rfl
@[simp] theorem resetBlock_PEND (s : State) : (resetBlock s).PEND = State.reset.PEND := rfl
@[simp] theorem resetBlock_HOST (s : State) : (resetBlock s).HOST = s.HOST := rfl
@[simp] theorem resetBlock_REPLIES (s : State) : (resetBlock s).REPLIES = s.REPLIES := rfl
@[simp] theorem resetBlock_DRAWS (s : State) : (resetBlock s).DRAWS = s.DRAWS := rfl

@[simp] theorem frameEnd_SI (s : State) : (frameEnd s).SI = s.SI := by
  unfold frameEnd; split <;> rfl
@[simp] theorem frameEnd_CI (s : State) : (frameEnd s).CI = s.CI := by
  unfold frameEnd; split <;> rfl
@[simp] theorem frameEnd_POS (s : State) : (frameEnd s).POS = s.POS := by
  unfold frameEnd; split <;> rfl
@[simp] theorem frameEnd_STATUS (s : State) : (frameEnd s).STATUS = s.STATUS := by
  unfold frameEnd; split <;> rfl
@[simp] theorem frameEnd_ERR (s : State) : (frameEnd s).ERR = s.ERR := by
  unfold frameEnd; split <;> rfl
@[simp] theorem frameEnd_POVF (s : State) : (frameEnd s).POVF = s.POVF := by
  unfold frameEnd; split <;> rfl
@[simp] theorem frameEnd_WOVF (s : State) : (frameEnd s).WOVF = s.WOVF := by
  unfold frameEnd; split <;> rfl
@[simp] theorem frameEnd_TOTAL (s : State) : (frameEnd s).TOTAL = s.TOTAL := by
  unfold frameEnd; split <;> rfl
@[simp] theorem frameEnd_NFRAMES (s : State) : (frameEnd s).NFRAMES = s.NFRAMES := by
  unfold frameEnd; split <;> rfl
@[simp] theorem frameEnd_CHANNELS (s : State) : (frameEnd s).CHANNELS = s.CHANNELS := by
  unfold frameEnd; split <;> rfl
@[simp] theorem frameEnd_RATE (s : State) : (frameEnd s).RATE = s.RATE := by
  unfold frameEnd; split <;> rfl
@[simp] theorem frameEnd_FSAMPLES (s : State) : (frameEnd s).FSAMPLES = s.FSAMPLES := by
  unfold frameEnd; split <;> rfl
@[simp] theorem frameEnd_FSIZE (s : State) : (frameEnd s).FSIZE = s.FSIZE := by
  unfold frameEnd; split <;> rfl
@[simp] theorem frameEnd_NSLICES (s : State) : (frameEnd s).NSLICES = s.NSLICES := by
  unfold frameEnd; split <;> rfl
@[simp] theorem frameEnd_OUTLEN (s : State) : (frameEnd s).OUTLEN = s.OUTLEN := by
  unfold frameEnd; split <;> rfl
@[simp] theorem frameEnd_H (s : State) : (frameEnd s).H = s.H := by
  unfold frameEnd; split <;> rfl
@[simp] theorem frameEnd_W (s : State) : (frameEnd s).W = s.W := by
  unfold frameEnd; split <;> rfl
@[simp] theorem frameEnd_CHBUF (s : State) : (frameEnd s).CHBUF = s.CHBUF := by
  unfold frameEnd; split <;> rfl
@[simp] theorem frameEnd_PCM (s : State) : (frameEnd s).PCM = s.PCM := by
  unfold frameEnd; split <;> rfl
@[simp] theorem frameEnd_IN (s : State) : (frameEnd s).IN = s.IN := by
  unfold frameEnd; split <;> rfl
@[simp] theorem frameEnd_EOS (s : State) : (frameEnd s).EOS = s.EOS := by
  unfold frameEnd; split <;> rfl
@[simp] theorem frameEnd_CFG (s : State) : (frameEnd s).CFG = s.CFG := by
  unfold frameEnd; split <;> rfl
@[simp] theorem frameEnd_SF (s : State) : (frameEnd s).SF = s.SF := by
  unfold frameEnd; split <;> rfl
@[simp] theorem frameEnd_PEND (s : State) : (frameEnd s).PEND = s.PEND := by
  unfold frameEnd; split <;> rfl
@[simp] theorem frameEnd_HOST (s : State) : (frameEnd s).HOST = s.HOST := by
  unfold frameEnd; split <;> rfl
@[simp] theorem frameEnd_REPLIES (s : State) : (frameEnd s).REPLIES = s.REPLIES := by
  unfold frameEnd; split <;> rfl
@[simp] theorem frameEnd_DRAWS (s : State) : (frameEnd s).DRAWS = s.DRAWS := by
  unfold frameEnd; split <;> rfl

@[simp] theorem advance_POS (s : State) : (advance s).POS = s.POS := by
  unfold advance; split <;> (repeat' split) <;> simp
@[simp] theorem advance_STATUS (s : State) : (advance s).STATUS = s.STATUS := by
  unfold advance; split <;> (repeat' split) <;> simp
@[simp] theorem advance_ERR (s : State) : (advance s).ERR = s.ERR := by
  unfold advance; split <;> (repeat' split) <;> simp
@[simp] theorem advance_POVF (s : State) : (advance s).POVF = s.POVF := by
  unfold advance; split <;> (repeat' split) <;> simp
@[simp] theorem advance_WOVF (s : State) : (advance s).WOVF = s.WOVF := by
  unfold advance; split <;> (repeat' split) <;> simp
@[simp] theorem advance_TOTAL (s : State) : (advance s).TOTAL = s.TOTAL := by
  unfold advance; split <;> (repeat' split) <;> simp
@[simp] theorem advance_NFRAMES (s : State) : (advance s).NFRAMES = s.NFRAMES := by
  unfold advance; split <;> (repeat' split) <;> simp
@[simp] theorem advance_CHANNELS (s : State) : (advance s).CHANNELS = s.CHANNELS := by
  unfold advance; split <;> (repeat' split) <;> simp
@[simp] theorem advance_RATE (s : State) : (advance s).RATE = s.RATE := by
  unfold advance; split <;> (repeat' split) <;> simp
@[simp] theorem advance_FSAMPLES (s : State) : (advance s).FSAMPLES = s.FSAMPLES := by
  unfold advance; split <;> (repeat' split) <;> simp
@[simp] theorem advance_FSIZE (s : State) : (advance s).FSIZE = s.FSIZE := by
  unfold advance; split <;> (repeat' split) <;> simp
@[simp] theorem advance_NSLICES (s : State) : (advance s).NSLICES = s.NSLICES := by
  unfold advance; split <;> (repeat' split) <;> simp
@[simp] theorem advance_OUTLEN (s : State) : (advance s).OUTLEN = s.OUTLEN := by
  unfold advance; split <;> (repeat' split) <;> simp
@[simp] theorem advance_H (s : State) : (advance s).H = s.H := by
  unfold advance; split <;> (repeat' split) <;> simp
@[simp] theorem advance_W (s : State) : (advance s).W = s.W := by
  unfold advance; split <;> (repeat' split) <;> simp
@[simp] theorem advance_CHBUF (s : State) : (advance s).CHBUF = s.CHBUF := by
  unfold advance; split <;> (repeat' split) <;> simp
@[simp] theorem advance_PCM (s : State) : (advance s).PCM = s.PCM := by
  unfold advance; split <;> (repeat' split) <;> simp
@[simp] theorem advance_IN (s : State) : (advance s).IN = s.IN := by
  unfold advance; split <;> (repeat' split) <;> simp
@[simp] theorem advance_EOS (s : State) : (advance s).EOS = s.EOS := by
  unfold advance; split <;> (repeat' split) <;> simp
@[simp] theorem advance_CFG (s : State) : (advance s).CFG = s.CFG := by
  unfold advance; split <;> (repeat' split) <;> simp
@[simp] theorem advance_SF (s : State) : (advance s).SF = s.SF := by
  unfold advance; split <;> (repeat' split) <;> simp
@[simp] theorem advance_PEND (s : State) : (advance s).PEND = s.PEND := by
  unfold advance; split <;> (repeat' split) <;> simp
@[simp] theorem advance_HOST (s : State) : (advance s).HOST = s.HOST := by
  unfold advance; split <;> (repeat' split) <;> simp
@[simp] theorem advance_REPLIES (s : State) : (advance s).REPLIES = s.REPLIES := by
  unfold advance; split <;> (repeat' split) <;> simp
@[simp] theorem advance_DRAWS (s : State) : (advance s).DRAWS = s.DRAWS := by
  unfold advance; split <;> (repeat' split) <;> simp

@[simp] theorem endSlice_POS (s : State) : (endSlice s).POS = s.POS := by simp [endSlice]
@[simp] theorem endSlice_STATUS (s : State) : (endSlice s).STATUS = s.STATUS := by simp [endSlice]
@[simp] theorem endSlice_ERR (s : State) : (endSlice s).ERR = s.ERR := by simp [endSlice]
@[simp] theorem endSlice_POVF (s : State) : (endSlice s).POVF = s.POVF := by simp [endSlice]
@[simp] theorem endSlice_WOVF (s : State) : (endSlice s).WOVF = s.WOVF := by simp [endSlice]
@[simp] theorem endSlice_TOTAL (s : State) : (endSlice s).TOTAL = s.TOTAL := by simp [endSlice]
@[simp] theorem endSlice_NFRAMES (s : State) : (endSlice s).NFRAMES = s.NFRAMES := by simp [endSlice]
@[simp] theorem endSlice_CHANNELS (s : State) : (endSlice s).CHANNELS = s.CHANNELS := by simp [endSlice]
@[simp] theorem endSlice_RATE (s : State) : (endSlice s).RATE = s.RATE := by simp [endSlice]
@[simp] theorem endSlice_FSAMPLES (s : State) : (endSlice s).FSAMPLES = s.FSAMPLES := by simp [endSlice]
@[simp] theorem endSlice_FSIZE (s : State) : (endSlice s).FSIZE = s.FSIZE := by simp [endSlice]
@[simp] theorem endSlice_NSLICES (s : State) : (endSlice s).NSLICES = s.NSLICES := by simp [endSlice]
@[simp] theorem endSlice_OUTLEN (s : State) : (endSlice s).OUTLEN = s.OUTLEN := by simp [endSlice]
@[simp] theorem endSlice_H (s : State) : (endSlice s).H = s.H := by simp [endSlice]
@[simp] theorem endSlice_W (s : State) : (endSlice s).W = s.W := by simp [endSlice]
@[simp] theorem endSlice_CHBUF (s : State) : (endSlice s).CHBUF = s.CHBUF := by simp [endSlice]
@[simp] theorem endSlice_PCM (s : State) : (endSlice s).PCM = s.PCM := by simp [endSlice]
@[simp] theorem endSlice_IN (s : State) : (endSlice s).IN = s.IN := by simp [endSlice]
@[simp] theorem endSlice_EOS (s : State) : (endSlice s).EOS = s.EOS := by simp [endSlice]
@[simp] theorem endSlice_CFG (s : State) : (endSlice s).CFG = s.CFG := by simp [endSlice]
@[simp] theorem endSlice_SF (s : State) : (endSlice s).SF = 0 := by simp [endSlice]
@[simp] theorem endSlice_PEND (s : State) : (endSlice s).PEND = [] := by simp [endSlice]
@[simp] theorem endSlice_HOST (s : State) : (endSlice s).HOST = s.HOST := by simp [endSlice]
@[simp] theorem endSlice_REPLIES (s : State) : (endSlice s).REPLIES = s.REPLIES := by simp [endSlice]
@[simp] theorem endSlice_DRAWS (s : State) : (endSlice s).DRAWS = s.DRAWS := by simp [endSlice]

@[simp] theorem sampleStep_PH (q : BitVec 3) (s : State) : (sampleStep q s).PH = s.PH := rfl
@[simp] theorem sampleStep_FI (q : BitVec 3) (s : State) : (sampleStep q s).FI = s.FI := rfl
@[simp] theorem sampleStep_SI (q : BitVec 3) (s : State) : (sampleStep q s).SI = s.SI := rfl
@[simp] theorem sampleStep_CI (q : BitVec 3) (s : State) : (sampleStep q s).CI = s.CI := rfl
@[simp] theorem sampleStep_POS (q : BitVec 3) (s : State) : (sampleStep q s).POS = s.POS := rfl
@[simp] theorem sampleStep_STATUS (q : BitVec 3) (s : State) : (sampleStep q s).STATUS = s.STATUS := rfl
@[simp] theorem sampleStep_ERR (q : BitVec 3) (s : State) : (sampleStep q s).ERR = s.ERR := rfl
@[simp] theorem sampleStep_TOTAL (q : BitVec 3) (s : State) : (sampleStep q s).TOTAL = s.TOTAL := rfl
@[simp] theorem sampleStep_NFRAMES (q : BitVec 3) (s : State) : (sampleStep q s).NFRAMES = s.NFRAMES := rfl
@[simp] theorem sampleStep_CHANNELS (q : BitVec 3) (s : State) : (sampleStep q s).CHANNELS = s.CHANNELS := rfl
@[simp] theorem sampleStep_RATE (q : BitVec 3) (s : State) : (sampleStep q s).RATE = s.RATE := rfl
@[simp] theorem sampleStep_FSAMPLES (q : BitVec 3) (s : State) : (sampleStep q s).FSAMPLES = s.FSAMPLES := rfl
@[simp] theorem sampleStep_FSIZE (q : BitVec 3) (s : State) : (sampleStep q s).FSIZE = s.FSIZE := rfl
@[simp] theorem sampleStep_NSLICES (q : BitVec 3) (s : State) : (sampleStep q s).NSLICES = s.NSLICES := rfl
@[simp] theorem sampleStep_OUTLEN (q : BitVec 3) (s : State) : (sampleStep q s).OUTLEN = s.OUTLEN := rfl
@[simp] theorem sampleStep_PCM (q : BitVec 3) (s : State) : (sampleStep q s).PCM = s.PCM := rfl
@[simp] theorem sampleStep_IN (q : BitVec 3) (s : State) : (sampleStep q s).IN = s.IN := rfl
@[simp] theorem sampleStep_EOS (q : BitVec 3) (s : State) : (sampleStep q s).EOS = s.EOS := rfl
@[simp] theorem sampleStep_CFG (q : BitVec 3) (s : State) : (sampleStep q s).CFG = s.CFG := rfl
@[simp] theorem sampleStep_SF (q : BitVec 3) (s : State) : (sampleStep q s).SF = s.SF := rfl
@[simp] theorem sampleStep_PEND (q : BitVec 3) (s : State) : (sampleStep q s).PEND = s.PEND := rfl
@[simp] theorem sampleStep_HOST (q : BitVec 3) (s : State) : (sampleStep q s).HOST = s.HOST := rfl
@[simp] theorem sampleStep_REPLIES (q : BitVec 3) (s : State) : (sampleStep q s).REPLIES = s.REPLIES := rfl
@[simp] theorem sampleStep_DRAWS (q : BitVec 3) (s : State) : (sampleStep q s).DRAWS = s.DRAWS := rfl

end Machine
end Sys2Proof
end

