-- ==== Sys2Proof/Laws/Ops.lean ====
section
/-! SUPPORT. For each shared operation, once, everything it can do. -/

namespace Sys2Proof
namespace Machine

open Host (Outcome)

section Stream

@[simp] theorem Memory.wf_nil : Memory.wf [] = true := rfl

theorem Memory.wf_iff (m : Memory) : m.wf = true ↔ m.map Prod.fst = List.range m.length := by
  simp [Memory.wf]

theorem Memory.offerByte_length (m : Memory) (b : Byte) : (m.offerByte b).length = m.length + 1 := by
  simp [Memory.offerByte]

/-- Offering a byte keeps the canonical form. -/
theorem Memory.wf_offerByte {m : Memory} (h : m.wf = true) (b : Byte) : (m.offerByte b).wf = true := by
  rw [Memory.wf_iff] at *
  simp [Memory.offerByte, h, List.range_succ]

@[simp] theorem Memory.offer_length (m : Memory) (bs : List Byte) : (m.offer bs).length = m.length + bs.length := by
  induction bs generalizing m with
  | nil => rfl
  | cons b bs ih =>
    show ((m.offerByte b).offer bs).length = _
    rw [ih, Memory.offerByte_length, List.length_cons]; omega

/-- Offering bytes keeps the canonical form. -/
theorem Memory.wf_offer {m : Memory} (h : m.wf = true) (bs : List Byte) : (m.offer bs).wf = true := by
  induction bs generalizing m with
  | nil => exact h
  | cons b bs ih => exact ih (Memory.wf_offerByte h b)

theorem streamWith_wf (m : Memory) (pos : Nat) (bs : List Byte) : (streamWith m pos bs).wf = true :=
  Memory.wf_offer Memory.wf_nil _

/-- In canonical form offset `a` holds the `a`-th byte offered. -/
theorem Memory.read_eq {m : Memory} (h : m.wf = true) (a : Nat) : m.read a = (m[a]?).map Prod.snd := by
  rw [Memory.wf_iff] at h
  suffices H : ∀ (l : Memory) (k : Nat), l.map Prod.fst = (List.range l.length).map (· + k) →
      List.lookup a l = if k ≤ a then (l[a - k]?).map Prod.snd else none by
    have := H m 0 (by simpa using h)
    simpa [Memory.read] using this
  intro l
  induction l with
  | nil => intro k _; simp
  | cons x l ih =>
    intro k hk
    obtain ⟨x1, x2⟩ := x
    simp only [List.map_cons, List.length_cons, List.range_succ_eq_map, List.map_map, List.cons.injEq] at hk
    obtain ⟨h1, h2⟩ := hk
    have h1' : x1 = k := by omega
    have := ih (k + 1) (by rw [h2]; apply List.map_congr_left; intro y _; simp; omega)
    rw [List.lookup_cons, this]
    by_cases hak : a = k
    · subst hak; subst h1'; simp
    · have : (a == x1) = false := by simp; omega
      rw [this]
      by_cases hka : k ≤ a
      · have e1 : k + 1 ≤ a := by omega
        have e2 : a - k = (a - (k + 1)) + 1 := by omega
        simp [hka, e1, e2]
      · have e1 : ¬ k + 1 ≤ a := by omega
        simp [hka, e1]

theorem Memory.offer_append (m : Memory) (a b : List Byte) : m.offer (a ++ b) = (m.offer a).offer b := by
  simp [Memory.offer]

/-- Offering bytes leaves what was there, in place. -/
theorem Memory.offer_prefix (m : Memory) (bs : List Byte) : ∃ l, m.offer bs = m ++ l ∧ l.map Prod.snd = bs := by
  induction bs generalizing m with
  | nil => exact ⟨[], by simp [Memory.offer]⟩
  | cons b bs ih =>
    obtain ⟨l, h1, h2⟩ := ih (m.offerByte b)
    refine ⟨(m.length, b) :: l, ?_, by simp [h2]⟩
    show (m.offerByte b).offer bs = _
    rw [h1]; simp [Memory.offerByte]

/-- `ReadBytes`'s range: exactly `n` bytes, all of them there (rule R61). -/
theorem Memory.readRange_eq_some {m : Memory} {a n : Nat} {bs : List Byte} :
    m.readRange a n = some bs ↔ bs.length = n ∧ BytesAt m a bs := by
  induction n generalizing a bs with
  | zero =>
    simp only [Memory.readRange, Option.some.injEq]
    constructor
    · rintro rfl; exact ⟨rfl, fun k hk => absurd hk (by simp)⟩
    · rintro ⟨h, -⟩; exact (List.length_eq_zero_iff.mp h).symm
  | succ n ih =>
    constructor
    · intro h
      simp only [Memory.readRange] at h
      split at h
      · rename_i b bs' hb hbs
        cases h
        obtain ⟨hl, hat⟩ := ih.mp hbs
        refine ⟨by simp [hl], fun k hk => ?_⟩
        cases k with
        | zero => simpa using hb
        | succ k =>
          have := hat k (by simpa using hk)
          rw [show a + (k + 1) = a + 1 + k by omega, this]; simp
      · cases h
    · rintro ⟨hl, hat⟩
      cases bs with
      | nil => simp at hl
      | cons b bs =>
        have hb : m.read a = some b := by simpa using hat 0 (by simp)
        have hbs : m.readRange (a + 1) n = some bs := ih.mpr ⟨by simpa using hl, fun k hk => by
          have := hat (k + 1) (by simpa using hk)
          rw [show a + 1 + k = a + (k + 1) by omega, this]; simp⟩
        simp [Memory.readRange, hb, hbs]

theorem Memory.readRange_length {m : Memory} {a n : Nat} {bs : List Byte} (h : m.readRange a n = some bs) :
    bs.length = n := (Memory.readRange_eq_some.mp h).1

/-- In canonical form a range is there exactly when `LEN - POS >= n` (rule R61). -/
theorem Memory.readRange_isSome {m : Memory} (h : m.wf = true) (a n : Nat) (hn : 0 < n) :
    (m.readRange a n).isSome = true ↔ a + n ≤ m.length := by
  rw [Option.isSome_iff_exists]
  constructor
  · rintro ⟨bs, hbs⟩
    obtain ⟨hl, hat⟩ := Memory.readRange_eq_some.mp hbs
    have := hat (n - 1) (by omega)
    rw [Memory.read_eq h] at this
    by_contra hc
    have hge : m.length ≤ a + (n - 1) := by omega
    rw [List.getElem?_eq_none hge, List.getElem?_eq_getElem (by omega)] at this
    simp at this
  · intro hle
    refine ⟨((m.drop a).take n).map Prod.snd, Memory.readRange_eq_some.mpr ⟨by simp; omega, fun k hk => ?_⟩⟩
    rw [Memory.read_eq h]
    simp only [List.length_map, List.length_take, List.length_drop] at hk
    simp [show k < n by omega]

end Stream

section Registers

/-- Room for bytes, in the terms of the claims (rules R25, R238). -/
theorem posFits_iff (s : State) (n : Nat) : s.posFits n = true ↔ s.RoomForBytes n := by
  unfold State.posFits State.RoomForBytes
  cases h : s.CFG.POS_WIDTH with
  | none => simp
  | some w => have := Nat.one_le_two_pow (n := w); simp; omega

/-- Room for samples, in the terms of the claims (rules R73, R238). -/
theorem samplesFit_iff (s : State) (n : Nat) : s.samplesFit n = true ↔ s.RoomForSamples n := by
  unfold State.samplesFit State.RoomForSamples State.stored
  cases s.CFG.PCM_CAPACITY <;> simp

/-- Failure entry, once (rule R228). -/
theorem raise_fails (x : ErrCode) (s : State) : FailsWith x s (raise x s) where
  phase := rfl
  status := rfl
  code := rfl
  noOutput := ⟨rfl, rfl⟩
  noBuffers c := by simp [raise]
  flags := ⟨rfl, rfl⟩
  inputs := ⟨rfl, rfl, rfl, rfl, rfl⟩

/-- `frame_end()` changes `PH` and `FI` alone (rule R123). -/
theorem frameEnd_cases (s : State) :
    (s.FI + 1 < s.NFRAMES ∧ frameEnd s = { s with FI := s.FI + 1, PH := .fhdr }) ∨
    (¬ s.FI + 1 < s.NFRAMES ∧ frameEnd s = { s with PH := .asm }) := by
  unfold frameEnd; split <;> simp_all

/-- `advance()` changes `PH`, `FI`, `SI` and `CI` alone (rule R123). -/
theorem advance_eq (s : State) :
    advance s = { s with PH := (advance s).PH, FI := (advance s).FI, SI := (advance s).SI, CI := (advance s).CI } := by
  unfold advance frameEnd
  split <;> (repeat' split) <;> rfl

theorem advance_chdr {s : State} (h : s.PH = .chdr) : advance s = { s with FI := 0, PH := .fhdr } := by
  simp [advance, h]

theorem advance_fhdr {s : State} (h : s.PH = .fhdr) :
    advance s = if s.CHANNELS.toNat = 0 then frameEnd s else { s with CI := 0, PH := .lms } := by
  simp [advance, h]

theorem advance_lms {s : State} (h : s.PH = .lms) :
    advance s = if g : s.CI.val + 1 < s.CHANNELS.toNat then { s with CI := nextChannel s g }
      else if s.NSLICES = 0 then frameEnd s else { s with SI := 0, CI := 0, PH := .slc } := by
  simp [advance, h]

theorem advance_slc {s : State} (h : s.PH = .slc) :
    advance s = if g : s.CI.val + 1 < s.CHANNELS.toNat then { s with CI := nextChannel s g }
      else if s.SI + 1 < s.NSLICES then { s with SI := s.SI + 1, CI := 0 } else frameEnd s := by
  simp [advance, h]

theorem advance_asm {s : State} (h : s.PH = .asm) : advance s = { s with PH := .done } := by
  simp [advance, h]

@[simp] theorem nextChannel_val (s : State) (h : s.CI.val + 1 < s.CHANNELS.toNat) : (nextChannel s h).val = s.CI.val + 1 :=
  rfl

/-- The registers a SAMPLE sub-step leaves (rule R180). -/
theorem sampleStep_eq (q : BitVec 3) (s : State) :
    sampleStep q s =
      { s with
        H := s.H.set s.CI (shiftHistory s.H[s.CI] (wrap16 (recon (predict s.H[s.CI] s.W[s.CI]) (resid s.SF q))))
        W := s.W.set s.CI (updateWeights s.H[s.CI] s.W[s.CI] (delta (resid s.SF q)))
        CHBUF := s.CHBUF.set s.CI
          (s.CHBUF[s.CI] ++ [wrap16 (recon (predict s.H[s.CI] s.W[s.CI]) (resid s.SF q))])
        POVF := s.POVF || povfEvent (predSum s.H[s.CI] s.W[s.CI])
        WOVF := s.WOVF || wovfEvent s.H[s.CI] s.W[s.CI] (delta (resid s.SF q)) } := rfl

end Registers

section Fields

theorem sfi_cases (v : BitVec 4) :
    v = 0 ∨ v = 1 ∨ v = 2 ∨ v = 3 ∨ v = 4 ∨ v = 5 ∨ v = 6 ∨ v = 7 ∨ v = 8 ∨ v = 9 ∨ v = 10 ∨
    v = 11 ∨ v = 12 ∨ v = 13 ∨ v = 14 ∨ v = 15 := by
  revert v; decide

theorem code_cases (q : BitVec 3) :
    q = 0 ∨ q = 1 ∨ q = 2 ∨ q = 3 ∨ q = 4 ∨ q = 5 ∨ q = 6 ∨ q = 7 := by
  revert q; decide

/-- Every scale-factor code latches its ROM entry (rule R165). -/
theorem runSfi_eq (v : BitVec 4) (s : State) : runSfi v s = .next (latchScale v s) := by
  rcases sfi_cases v with rfl | rfl | rfl | rfl | rfl | rfl | rfl | rfl | rfl | rfl | rfl | rfl | rfl | rfl | rfl | rfl <;> rfl

/-- Every residual code runs its SAMPLE sub-step (rule R180). -/
theorem runCode_eq (q : BitVec 3) (s : State) : runCode q s = .next (sampleStep q s) := by
  rcases code_cases q with rfl | rfl | rfl | rfl | rfl | rfl | rfl | rfl <;> rfl

/-- What one field of a slice leaves. -/
def fieldEffect : SubField → State → State
  | .sfi v, s => latchScale v s
  | .code q, s => sampleStep q s

theorem runField_eq (f : SubField) (s : State) : runField f s = .next (fieldEffect f s) := by
  cases f with
  | sfi v => exact runSfi_eq v s
  | code q => exact runCode_eq q s

/-- The fields of a slice run to the end, each on what the one before left (rule R188). -/
theorem runFields_eq (fs : List SubField) (s : State) :
    runFields fs s = .next (endSlice (fs.foldl (fun t f => fieldEffect f t) s)) := by
  induction fs generalizing s with
  | nil => rfl
  | cons f fs ih => simp only [runFields, runField_eq, List.foldl_cons]; exact ih _

/-- `exec` of a field's row is the field's effect. -/
theorem exec_field {f : SubField} {i : Instr} (h : decode (.field f) = .ok i) (s : State) :
    exec i s = .next (fieldEffect f s) := by
  cases f with
  | sfi v =>
    cases h
    rcases sfi_cases v with rfl | rfl | rfl | rfl | rfl | rfl | rfl | rfl | rfl | rfl | rfl | rfl | rfl | rfl | rfl | rfl <;> rfl
  | code q =>
    cases h
    rcases code_cases q with rfl | rfl | rfl | rfl | rfl | rfl | rfl | rfl <;> rfl

end Fields

end Machine
end Sys2Proof
end

