-- ==== Sys2Proof/Laws/PerInstr.lean ====
section
/-! SUPPORT. Statements made per instruction. TableWidth: the encoding of a well-formed instruction has the width
spec/opcode_table.json gives its row (rule R90). -/

namespace Sys2Proof
namespace Laws
namespace TableWidth

/-- `width_bits` of an instruction's row. -/
def widthBits : Instr → Nat
  | .chdr _ _ | .fhdr _ _ _ _ | .slc _ _ => 64
  | .lms _ _ => 128
  | .sf0 | .sf1 | .sf2 | .sf3 | .sf4 | .sf5 | .sf6 | .sf7 => 4
  | .sf8 | .sf9 | .sf10 | .sf11 | .sf12 | .sf13 | .sf14 | .sf15 => 4
  | .q0 | .q1 | .q2 | .q3 | .q4 | .q5 | .q6 | .q7 => 3
  | .asm => 0
  | .start => 8

def Statement (i : Instr) : Prop := i.wellFormed = true → fetchedBits (encode i) = widthBits i

theorem chdr (magic : Tag) (total : BitVec 32) : Statement (.chdr magic total) := fun _ => by simp [encode, fetchedBits, widthBits]
theorem fhdr (channels : BitVec 8) (rate : BitVec 24) (samples size : BitVec 16) : Statement (.fhdr channels rate samples size) := fun _ => by simp [encode, fetchedBits, widthBits]
theorem lms (history weights : Taps) : Statement (.lms history weights) := fun _ => by simp [encode, fetchedBits, widthBits, bytesOfTaps, bytesOfS16]
theorem slc (sfi : BitVec 4) (codes : List (BitVec 3)) : Statement (.slc sfi codes) := fun _ => rfl
theorem sf0 : Statement .sf0 := fun _ => rfl
theorem sf1 : Statement .sf1 := fun _ => rfl
theorem sf2 : Statement .sf2 := fun _ => rfl
theorem sf3 : Statement .sf3 := fun _ => rfl
theorem sf4 : Statement .sf4 := fun _ => rfl
theorem sf5 : Statement .sf5 := fun _ => rfl
theorem sf6 : Statement .sf6 := fun _ => rfl
theorem sf7 : Statement .sf7 := fun _ => rfl
theorem sf8 : Statement .sf8 := fun _ => rfl
theorem sf9 : Statement .sf9 := fun _ => rfl
theorem sf10 : Statement .sf10 := fun _ => rfl
theorem sf11 : Statement .sf11 := fun _ => rfl
theorem sf12 : Statement .sf12 := fun _ => rfl
theorem sf13 : Statement .sf13 := fun _ => rfl
theorem sf14 : Statement .sf14 := fun _ => rfl
theorem sf15 : Statement .sf15 := fun _ => rfl
theorem q0 : Statement .q0 := fun _ => rfl
theorem q1 : Statement .q1 := fun _ => rfl
theorem q2 : Statement .q2 := fun _ => rfl
theorem q3 : Statement .q3 := fun _ => rfl
theorem q4 : Statement .q4 := fun _ => rfl
theorem q5 : Statement .q5 := fun _ => rfl
theorem q6 : Statement .q6 := fun _ => rfl
theorem q7 : Statement .q7 := fun _ => rfl
theorem asm : Statement .asm := fun _ => rfl
theorem start : Statement .start := fun _ => rfl

end TableWidth
end Laws
end Sys2Proof
end

