-- ==== Sys2Proof/Laws/Step.lean ====
section
/-! SUPPORT. Each meaning and the step, inverted once: if it answers a next state, one of these cases holds. -/

namespace Sys2Proof
namespace Machine

open Host (Outcome)

section Meanings

/-- What CHDR latches (rules R121, R122). -/
def chdrLatched (total : BitVec 32) (s : State) : State :=
  { s.consume Config.CHDR_LEN with TOTAL := total, NFRAMES := frameCount total }

theorem execChdr_cases (magic : Tag) (total : BitVec 32) (s : State) :
    (s.posFits Config.CHDR_LEN = true ∧ magic = s.CFG.MAGIC ∧
      execChdr magic total s = .next (advance (chdrLatched total s))) ∨
    (s.posFits Config.CHDR_LEN = true ∧ magic ≠ s.CFG.MAGIC ∧
      execChdr magic total s = .next (raise .malformedContainer (s.consume Config.CHDR_LEN))) ∨
    (s.posFits Config.CHDR_LEN = false ∧ execChdr magic total s = .next (raise .capacityExceeded s)) := by
  unfold execChdr chdrLatched
  by_cases h : s.posFits Config.CHDR_LEN = true
  · by_cases g : magic = s.CFG.MAGIC <;> simp [h, g]
  · simp [h]

/-- What FHDR latches (rules R124, R126). -/
def fhdrLatched (channels : BitVec 8) (rate : BitVec 24) (samples size : BitVec 16) (s : State) : State :=
  { s.consume Config.FHDR_LEN with
    CHANNELS := channels, RATE := rate.setWidth 32, FSAMPLES := samples, FSIZE := size, NSLICES := sliceGroups samples }

theorem channelsAgree_iff (channels : BitVec 8) (s : State) :
    channelsAgree channels s = true ↔ s.FI = 0 ∨ channels = s.CHANNELS := by
  simp [channelsAgree]

theorem execFhdr_cases (channels : BitVec 8) (rate : BitVec 24) (samples size : BitVec 16) (s : State) :
    (s.posFits Config.FHDR_LEN = true ∧ (s.FI = 0 ∨ channels = s.CHANNELS) ∧
      execFhdr channels rate samples size s = .next (advance (fhdrLatched channels rate samples size s))) ∨
    (s.posFits Config.FHDR_LEN = true ∧ ¬ (s.FI = 0 ∨ channels = s.CHANNELS) ∧
      execFhdr channels rate samples size s = .next (raise .channelCountMismatch (s.consume Config.FHDR_LEN))) ∨
    (s.posFits Config.FHDR_LEN = false ∧
      execFhdr channels rate samples size s = .next (raise .capacityExceeded s)) := by
  unfold execFhdr fhdrLatched
  rw [← channelsAgree_iff]
  by_cases h : s.posFits Config.FHDR_LEN = true
  · by_cases g : channelsAgree channels s = true <;> simp [h, g]
  · simp [h]

theorem execLms_cases (history weights : Taps) (s : State) :
    (s.posFits Config.LMS_BYTES = true ∧ execLms history weights s =
      .next (advance ((s.consume Config.LMS_BYTES).setChannel history weights))) ∨
    (s.posFits Config.LMS_BYTES = false ∧ execLms history weights s = .next (raise .capacityExceeded s)) := by
  unfold execLms
  by_cases h : s.posFits Config.LMS_BYTES = true <;> simp [h]

/-- The state a slice's fields leave, before the sequencer advances. -/
def afterFields (sfi : BitVec 4) (codes : List (BitVec 3)) (s : State) : State :=
  (codes.take s.groupLen).foldl (fun t q => sampleStep q t) (latchScale sfi (s.consume Config.SLC_LEN))

theorem execSlc_cases (sfi : BitVec 4) (codes : List (BitVec 3)) (s : State) :
    (s.posFits Config.SLC_LEN = true ∧ s.samplesFit (codes.take s.groupLen).length = true ∧
      execSlc sfi codes s = .next (endSlice (afterFields sfi codes s))) ∨
    ((s.posFits Config.SLC_LEN = false ∨ s.samplesFit (codes.take s.groupLen).length = false) ∧
      execSlc sfi codes s = .next (raise .capacityExceeded s)) := by
  unfold execSlc afterFields
  by_cases h : s.posFits Config.SLC_LEN = true
  · by_cases g : s.samplesFit (codes.take s.groupLen).length = true
    · left
      rw [runFields_eq, sliceFields, List.foldl_cons, List.foldl_map]
      simp only [h, g, Bool.and_self, if_true, true_and]
      rfl
    · right
      refine ⟨Or.inr (by simpa using g), ?_⟩
      rw [if_neg (by rw [Bool.and_eq_true]; exact fun h => g h.2)]
  · right; simp [h]

theorem execAsm_cases (s : State) :
    (lengthsAgree s.buffers = true ∧ execAsm s = .next { advance { s with
        PCM := interleave s.buffers (commonLength s.buffers)
        OUTLEN := commonLength s.buffers * s.CHANNELS.toNat } with STATUS := .done }) ∨
    (lengthsAgree s.buffers = false ∧ execAsm s = .next (raise .channelLengthMismatch s)) := by
  unfold execAsm
  by_cases h : lengthsAgree s.buffers = true <;> simp [h]

theorem execStart_cases (s : State) :
    (s.STATUS = .busy ∧ execStart s = .next s) ∨ (s.STATUS ≠ .busy ∧ execStart s = .next (startDecode s)) := by
  unfold execStart
  by_cases h : s.STATUS = .busy <;> simp [h]

end Meanings

section Decoding

theorem decodeStream_ok {ph : Phase} {n : Nat} {bs : List Byte} (hu : unitLength ph = some n) (hl : bs.length = n) :
    ∃ i, decodeStream ph bs = .ok i := by
  cases ph <;> simp_all [decodeStream, unitLength]

/-- The words `fetch` gives are all read (rules R100, R102). -/
theorem fetch_decodes {s : State} {f : Fetched} (h : fetch s = some f) : ∃ i, decode f = .ok i := by
  unfold fetch at h
  split at h
  · rename_i g _ _
    cases h
    cases g <;> exact ⟨_, rfl⟩
  · split at h
    · cases h; exact ⟨_, rfl⟩
    · simp only [Option.map_eq_some_iff, unitBytes, Option.bind_eq_some_iff] at h
      obtain ⟨bs, ⟨n, hn, hb⟩, rfl⟩ := h
      exact decodeStream_ok hn (Memory.readRange_length hb)

end Decoding

section Sequencer

/-- No sequencer step stops the machine. -/
theorem sequencerStep_cases (s : State) :
    (∃ f fs, s.PEND = f :: fs ∧ sequencerStep s = .next (afterField (fieldEffect f { s with PEND := fs }))) ∨
    (s.PEND = [] ∧ s.PH = .asm ∧ sequencerStep s = execAsm s) ∨
    (s.PEND = [] ∧ s.PH = .chdr ∧ ∃ bs, s.readBytes Config.CHDR_LEN = some bs ∧
      sequencerStep s = exec (readChdr bs) s) ∨
    (s.PEND = [] ∧ s.PH = .fhdr ∧ ∃ bs, s.readBytes Config.FHDR_LEN = some bs ∧
      sequencerStep s = exec (readFhdr bs) s) ∨
    (s.PEND = [] ∧ s.PH = .lms ∧ ∃ bs, s.readBytes Config.LMS_BYTES = some bs ∧
      sequencerStep s = exec (readLms bs) s) ∨
    (s.PEND = [] ∧ s.PH = .slc ∧ ∃ bs, s.readBytes Config.SLC_LEN = some bs ∧
      sequencerStep s = exec (readSlc bs) s) ∨
    (s.PEND = [] ∧ shortRead s = true ∧ sequencerStep s = .next (raise (shortReadError s.PH) s)) ∨
    (s.PEND = [] ∧ shortRead s = false ∧ unitBytes s = none ∧ s.PH ≠ .asm ∧ sequencerStep s = .next s) := by
  cases hp : s.PEND with
  | cons f fs =>
    left
    refine ⟨f, fs, rfl, ?_⟩
    have hf : fetch s = some (.field f) := by simp [fetch, hp]
    obtain ⟨i, hi⟩ := fetch_decodes hf
    simp only [sequencerStep, hf, execFetched, hi, exec_field hi, afterExec, beforeExec, hp, List.tail_cons]
  | nil =>
    right
    have hb : beforeExec s = s := by simp [beforeExec, hp]; rw [← hp]
    by_cases ha : s.PH = .asm
    · left
      simp [sequencerStep, fetch, hp, ha, execFetched, decode, afterExec, hb, exec]
    · right
      cases hu : unitBytes s with
      | none =>
        right; right; right; right
        have : sequencerStep s = .next (noFetch s) := by simp [sequencerStep, fetch, hp, ha, hu]
        by_cases hs : shortRead s = true
        · left; exact ⟨rfl, hs, by rw [this]; simp [noFetch, hs]⟩
        · right; exact ⟨rfl, by simpa using hs, rfl, ha, by rw [this]; simp [noFetch, hs]⟩
      | some bs =>
        have hu' := hu
        simp only [unitBytes, Option.bind_eq_some_iff] at hu
        obtain ⟨n, hn, hr⟩ := hu
        have hl := Memory.readRange_length hr
        have hf : fetch s = some (.stream s.PH bs) := by simp [fetch, hp, ha, hu']
        have hs : sequencerStep s = execFetched (.stream s.PH bs) s := by simp [sequencerStep, hf]
        cases hph : s.PH <;> rw [hph] at hn hs <;> simp [unitLength] at hn <;> subst hn
        · left; exact ⟨rfl, rfl, bs, hr, by rw [hs]; simp [execFetched, decode, decodeStream, unitLength, hl, hb, afterExec]⟩
        · right; left
          exact ⟨rfl, rfl, bs, hr, by rw [hs]; simp [execFetched, decode, decodeStream, unitLength, hl, hb, afterExec]⟩
        · right; right; left
          exact ⟨rfl, rfl, bs, hr, by rw [hs]; simp [execFetched, decode, decodeStream, unitLength, hl, hb, afterExec]⟩
        · right; right; right; left
          exact ⟨rfl, rfl, bs, hr, by rw [hs]; simp [execFetched, decode, decodeStream, unitLength, hl, hb, afterExec]⟩

theorem sliceCodes_length (V : Nat) : (sliceCodes V).length = 20 := by simp [sliceCodes]

/-- At most twenty samples in a group (rule R126). -/
theorem groupLen_le (s : State) : s.groupLen ≤ 20 := by
  unfold State.groupLen groupSize
  split <;> simp only [Config.SLICE_LEN] <;> omega

/-- One step of the host's side: what each move does (rules R210 to R215). -/
theorem step_cons {s : State} {e : HostEvent} {rest : List HostEvent} (h : s.HOST = e :: rest) :
    step s = hostStep e { s with HOST := rest } := by
  simp [step, h]

theorem step_nil {s : State} (h : s.HOST = []) : step s = sequencerStep s := by
  simp [step, h]

/-- A write of `CMD` (rules R105, R210, R211). -/
theorem commandStep_eq (b : Byte) (s : State) : commandStep b s = if b = 0x01 then execStart s else .next s := by
  unfold commandStep
  by_cases h : b = 0x01
  · subst h; rfl
  · have : decode (.command b) = .error .reservedCommand := by simp only [decode, decodeCommand, if_neg h]
    rw [this, if_neg h]

end Sequencer

section Runs

/-- A run goes on from the state its first step answers. -/
theorem run_succ {s t : State} (h : step s = .next t) (k : Nat) :
    Host.Core.run Sys2Proof.core (k + 1) s = Host.Core.run Sys2Proof.core k t := by
  have h' : Sys2Proof.core.step s = .next t := h
  have hr : ∀ (M : Host.Core) (s t : M.State), M.step s = .next t → M.run (k + 1) s = M.run k t := by
    intro M s t hs
    simp only [Host.Core.run, hs]
  exact hr Sys2Proof.core s t h'

/-- A property every SAMPLE sub-step keeps is kept by a slice's samples. -/
theorem foldl_sampleStep (P : State → Prop) (hP : ∀ q t, P t → P (sampleStep q t)) (qs : List (BitVec 3)) (s : State)
    (h : P s) : P (qs.foldl (fun t q => sampleStep q t) s) := by
  induction qs generalizing s with
  | nil => exact h
  | cons q qs ih => exact ih _ (hP q s h)

@[simp] theorem fieldEffect_PEND (f : SubField) (s : State) : (fieldEffect f s).PEND = s.PEND := by cases f <;> rfl

@[simp] theorem fieldEffect_HOST (f : SubField) (s : State) : (fieldEffect f s).HOST = s.HOST := by cases f <;> rfl

/-- A field's effect does not look at the fields still to run. -/
theorem fieldEffect_withPEND (f : SubField) (s : State) (l : List SubField) :
    fieldEffect f { s with PEND := l } = { fieldEffect f s with PEND := l } := by
  cases f <;> rfl

end Runs

section Buffers

theorem buffers_length (s : State) : s.buffers.length = s.CHANNELS.toNat := by
  have h := s.CHANNELS.isLt
  simp only [State.buffers, List.length_take, Vector.length_toList, NCH_MAX]
  omega

theorem lengthsAgree_iff (bufs : List (List S16)) :
    lengthsAgree bufs = true ↔ ∀ b ∈ bufs, b.length = commonLength bufs := by
  simp [lengthsAgree]

/-- The interleave of equally long buffers has all their samples (rule R202). -/
theorem interleave_length (bufs : List (List S16)) (n : Nat) (h : ∀ b ∈ bufs, b.length = n) :
    (interleave bufs n).length = n * bufs.length := by
  unfold interleave
  rw [List.length_flatMap]
  have hrow : ∀ k ∈ List.range n, (bufs.filterMap fun b => b[k]?).length = bufs.length := by
    intro k hk
    rw [List.length_filterMap_eq_countP, List.countP_eq_length]
    intro b hb
    simp only [List.mem_range] at hk
    simp [h b hb, hk]
  rw [List.map_congr_left hrow]
  simp

end Buffers

end Machine
end Sys2Proof
end

