-- ==== Sys2Proof/Tests/Slice0.lean ====
section
/-! SUPPORT. Tests: words written out from the formats, single steps against the spec's own vectors (95_test_vectors.md),
and, for every obligation with hypotheses, a concrete state and operands that meet them. -/

namespace Sys2Proof.Tests

open Sys2Proof Sys2Proof.Machine
open Host (Outcome)

section Helpers

/-- A field of the next state, where there is one. -/
def got {α : Type} (o : Outcome State Fault Refusal) (f : State → α) : Option α :=
  match o with
  | .next t => some (f t)
  | .fault _ | .refused _ => none

/-- A mono decode in a phase: one frame of 20 samples, one slice group. -/
def busy (ph : Phase) : State :=
  { State.reset with PH := ph, STATUS := .busy, NFRAMES := 1, CHANNELS := 1, FSAMPLES := 20, NSLICES := 1 }

/-- The same with bytes offered, `POS` at the first of them. -/
def holding (ph : Phase) (bs : List Byte) : State := { busy ph with IN := Memory.offer [] bs }

/-- The same with the end of the stream signalled. -/
def ending (ph : Phase) (bs : List Byte) : State := { holding ph bs with EOS := true }

/-- The registers of channel 0 and the scale factor before one SAMPLE. -/
def channel0 (h w : Taps) (sfi : BitVec 4) : State :=
  { busy .slc with H := (busy .slc).H.set 0 h, W := (busy .slc).W.set 0 w, SF := sfRom sfi }

def taps (a b c d : Int) : Taps := ⟨BitVec.ofInt 16 a, BitVec.ofInt 16 b, BitVec.ofInt 16 c, BitVec.ofInt 16 d⟩

/-- What one SAMPLE leaves: the sample, `W'`, `H'`, `WOVF`, `POVF`. -/
def sampled (t : State) : List S16 × Taps × Taps × Bool × Bool := (t.CHBUF[0], t.W[0], t.H[0], t.WOVF, t.POVF)

/-- The state before ASM with given buffers, in channel order. -/
def assembling (channels : BitVec 8) (a b c : List S16) : State :=
  { busy .asm with CHANNELS := channels, CHBUF := (((busy .asm).CHBUF.set 0 a).set 1 b).set 2 c }

/-- A whole stream of zero channels: vector E5b. -/
def streamE5b : List Byte := [0x71, 0x6F, 0x61, 0x66, 0, 0, 0, 0, 0, 0, 0xAC, 0x44, 0, 20, 0, 0]

theorem room_bytes {s : State} {n : Nat} (h : s.CFG.POS_WIDTH = none) : s.RoomForBytes n := by
  simp [State.RoomForBytes, h]

theorem room_samples {s : State} {n : Nat} (h : s.CFG.PCM_CAPACITY = none) : s.RoomForSamples n := by
  simp [State.RoomForSamples, h]

def magic : Tag := ⟨0x71, 0x6F, 0x61, 0x66⟩

end Helpers

section WellFormed

/-- Rule R156: nineteen residual codes are no slice. -/
theorem test_wellFormed_slice_short : (Instr.slc 0 (List.replicate 19 0)).wellFormed = false := by decide
theorem test_wellFormed_slice_long : (Instr.slc 0 (List.replicate 21 0)).wellFormed = false := by decide
theorem test_wellFormed_slice : (Instr.slc 15 (List.replicate 20 7)).wellFormed = true := by decide

end WellFormed

section Decode

/-- Rule R91 with V-B4 for the count. -/
theorem test_decode_chdr : decode (.stream .chdr [0x71, 0x6F, 0x61, 0x66, 1, 2, 3, 4]) = .ok (.chdr magic 16909060) := by
  decide
/-- Rule R92 with V-B5, V-B11 and V-B12's order. -/
theorem test_decode_fhdr : decode (.stream .fhdr [0x02, 0x00, 0xAC, 0x44, 0x00, 0x14, 0x14, 0x00]) =
    .ok (.fhdr 2 44100 20 5120) := by decide
/-- The example of rule R140. -/
theorem test_decode_lms : decode (.stream .lms [0xFF, 0x9C, 0x00, 0xC8, 0xFE, 0xD4, 0x01, 0x90, 0x03, 0xE8, 0x07, 0xD0,
    0x0B, 0xB8, 0x0F, 0xA0]) = .ok (.lms (taps (-100) 200 (-300) 400) (taps 1000 2000 3000 4000)) := by decide
/-- V-U10. -/
theorem test_decode_slc_counting : decode (.stream .slc [0xA0, 0x53, 0x97, 0x70, 0x53, 0x97, 0x70, 0x53]) =
    .ok (.slc 10 [0, 1, 2, 3, 4, 5, 6, 7, 0, 1, 2, 3, 4, 5, 6, 7, 0, 1, 2, 3]) := by decide
/-- V-U11. -/
theorem test_decode_slc_asymmetric : decode (.stream .slc [0x5F, 0xAC, 0x68, 0x80, 0x53, 0x97, 0x7E, 0x38]) =
    .ok (.slc 5 [7, 6, 5, 4, 3, 2, 1, 0, 0, 1, 2, 3, 4, 5, 6, 7, 7, 0, 7, 0]) := by decide
/-- The words of SF0 to SF15, from the opcode table. -/
theorem test_decode_sf : [(0b0000 : BitVec 4), 0b0001, 0b0010, 0b0011, 0b0100, 0b0101, 0b0110, 0b0111, 0b1000, 0b1001,
      0b1010, 0b1011, 0b1100, 0b1101, 0b1110, 0b1111].map (fun v => (decode (.field (.sfi v))).toOption) =
    [Instr.sf0, .sf1, .sf2, .sf3, .sf4, .sf5, .sf6, .sf7, .sf8, .sf9, .sf10, .sf11, .sf12, .sf13, .sf14, .sf15].map
      some := by decide
/-- The words of Q0 to Q7, from the opcode table. -/
theorem test_decode_q : [(0b000 : BitVec 3), 0b001, 0b010, 0b011, 0b100, 0b101, 0b110, 0b111].map
      (fun v => (decode (.field (.code v))).toOption) =
    [Instr.q0, .q1, .q2, .q3, .q4, .q5, .q6, .q7].map some := by decide
/-- Rule R90: ASM has no bits. -/
theorem test_decode_asm : decode .implicit = .ok .asm := by decide
/-- Rule R105. -/
theorem test_decode_start : decode (.command 0b00000001) = .ok .start := by decide
/-- Rule R105, H5: the other values are reserved. -/
theorem test_decode_reserved : [(0x00 : Byte), 0x02, 0xFF].map (fun b => decode (.command b)) =
    List.replicate 3 (.error .reservedCommand) := by decide
theorem test_decode_lengths : decode (.stream .fhdr [1, 2, 3]) = .error .wrongLength ∧
    decode (.stream .done []) = .error .noUnitInPhase := by decide
/-- The rows of the opcode table that a bare word tells apart (log entry 2). -/
theorem test_table_words : decodeTableWord 64 0x716F616600000014 = some (.chdr magic 20) ∧
    decodeTableWord 8 0x01 = some .start ∧ decodeTableWord 8 0x05 = some .q5 ∧ decodeTableWord 8 0x0C = some .sf12 ∧
    decodeTableWord 0 0 = some .asm ∧ (decodeTableWord 64 0).isSome = true ∧ (decodeTableWord 128 0).isSome = true := by
  decide
theorem test_fetch_word_chdr :
    got (step (State.reset.withFetchWord 64 0x716F616600000014)) (fun t => (t.TOTAL, t.NFRAMES, t.POS, t.PH)) =
      some (20, 1, 8, .fhdr) := by decide
theorem test_fetch_word_start : got (step (State.reset.withFetchWord 8 1)) (fun t => (t.PH, t.STATUS)) =
    some (.chdr, .busy) := by decide

end Decode

section OneStep

/-- The example of rule R121. -/
theorem test_chdr : got (step (holding .chdr [0x71, 0x6F, 0x61, 0x66, 0x00, 0x00, 0x00, 0x14]))
    (fun t => (t.TOTAL, t.NFRAMES, t.POS, t.PH)) = some (20, 1, 8, .fhdr) := by decide
/-- E1: a wrong magic. -/
theorem test_chdr_magic : got (step (holding .chdr [0x71, 0x6F, 0x61, 0x46, 0x00, 0x00, 0x00, 0x14]))
    (fun t => (t.STATUS, t.ERR)) = some (.failed, .malformedContainer) := by decide
/-- The example of rule R124. -/
theorem test_fhdr : got (step (holding .fhdr [0x01, 0x00, 0xAC, 0x44, 0x00, 0x14, 0x00, 0x20]))
    (fun t => ((t.CHANNELS, t.RATE, t.FSAMPLES), t.FSIZE, t.NSLICES, t.PH, t.CI)) =
      some ((1, 44100, 20), 32, 1, .lms, 0) := by decide
/-- E7's second header: channel count 2 after 1. -/
theorem test_fhdr_mismatch : got (step { holding .fhdr [0x02, 0x00, 0xAC, 0x44, 0x00, 0x14, 0x00, 0x00] with FI := 1 })
    (fun t => (t.STATUS, t.ERR, t.POS)) = some (.failed, .channelCountMismatch, 8) := by decide
/-- The example of rule R140. -/
theorem test_lms : got (step (holding .lms [0xFF, 0x9C, 0x00, 0xC8, 0xFE, 0xD4, 0x01, 0x90, 0x03, 0xE8, 0x07, 0xD0, 0x0B,
    0xB8, 0x0F, 0xA0])) (fun t => (t.H[0], t.W[0], t.POS, t.PH)) =
      some (taps (-100) 200 (-300) 400, taps 1000 2000 3000 4000, 16, .slc) := by decide
set_option maxRecDepth 4000 in
/-- The first two samples of program PF, its flags and its last registers. -/
theorem test_slc : got (step { holding .slc [0xFD, 0x80, 0, 0, 0, 0, 0, 0] with
      FSAMPLES := 2
      H := (busy .slc).H.set 0 (taps (-32768) (-32768) (-32768) (-32768))
      W := (busy .slc).W.set 0 (taps (-32768) (-32768) (-32768) (-32768)) }) (fun t => (sampled t, t.POS, t.PH)) =
    some (([32767, BitVec.ofInt 16 (-32768)], taps 30976 30976 30976 (-32768), taps (-32768) (-32768) 32767 (-32768), true,
      true), 8, .asm) := by decide
/-- E12: no byte left for the slice. -/
theorem test_slc_short : got (step (ending .slc [])) (fun t => (t.STATUS, t.ERR, t.OUTLEN)) =
    some (.failed, .truncatedStream, 0) := by decide
/-- Rule R166. -/
theorem test_sf : [Instr.sf0, .sf1, .sf2, .sf3, .sf4, .sf5, .sf6, .sf7, .sf8, .sf9, .sf10, .sf11, .sf12, .sf13, .sf14,
      .sf15].map (fun i => got (exec i State.reset) State.SF) =
    [1, 7, 21, 45, 84, 138, 211, 304, 421, 562, 731, 928, 1157, 1419, 1715, 2048].map some := by decide
/-- V-D1 to V-D8 from the all-zero registers: the sample is the contribution. -/
theorem test_q : [Instr.q0, .q1, .q2, .q3, .q4, .q5, .q6, .q7].map
      (fun i => got (exec i (channel0 (taps 0 0 0 0) (taps 0 0 0 0) 0)) (fun t => t.CHBUF[0])) =
    [(1 : ℤ), -1, 3, -3, 5, -5, 7, -7].map (fun r => some [BitVec.ofInt 16 r]) := by decide
/-- V-S12: a negative sum rounds down. -/
theorem test_q0 : got (exec .q0 (channel0 (taps 0 0 0 (-1)) (taps 0 0 0 8193) 0)) sampled =
    some ([BitVec.ofInt 16 (-1)], taps 0 0 0 8193, taps 0 0 (-1) (-1), false, false) := by decide
/-- V-S4: the sign rule, a zero history entry counting as non-negative. -/
theorem test_q1 : got (exec .q1 (channel0 (taps 5 (-5) 0 (-1)) (taps 100 100 100 100) 0)) sampled =
    some ([BitVec.ofInt 16 (-2)], taps 99 101 99 101, taps (-5) 0 (-1) (-2), false, false) := by decide
/-- P2, channel 0, first sample. -/
theorem test_q2 : got (exec .q2 (channel0 (taps (-100) 200 (-300) 400) (taps 1000 2000 3000 4000) 5)) sampled =
    some ([467], taps 979 2021 2979 4021, taps 200 (-300) 400 467, false, false) := by decide
/-- V-S7: the floor of the weight step. -/
theorem test_q3 : got (exec .q3 (channel0 (taps 5 (-5) 0 (-1)) (taps 100 100 100 100) 1)) sampled =
    some ([BitVec.ofInt 16 (-19)], taps 98 102 98 102, taps (-5) 0 (-1) (-19), false, false) := by decide
/-- V-S24. -/
theorem test_q4 : got (exec .q4 (channel0 (taps 100 200 300 400) (taps (-1000) 2000 (-3000) 4000) 7)) sampled =
    some ([1490], taps (-915) 2085 (-2915) 4085, taps 200 300 400 1490, false, false) := by decide
/-- V-S25. -/
theorem test_q5 : got (exec .q5 (channel0 (taps (-100) 200 (-300) 400) (taps 1000 2000 3000 4000) 9)) sampled =
    some ([BitVec.ofInt 16 (-2407)], taps 1159 1841 3159 3841, taps 200 (-300) 400 (-2407), false, false) := by decide +kernel
/-- V-S17: weights wrap upward. -/
theorem test_q6 : got (exec .q6 (channel0 (taps 1 1 1 1) (taps 32767 32767 (-32768) (-32768)) 15)) sampled =
    some ([14335], taps (-31873) (-31873) (-31872) (-31872), taps 1 1 1 14335, true, false) := by decide
/-- V-S14: the clamp at the low end. -/
theorem test_q7 : got (exec .q7 (channel0 (taps 0 0 0 (-32768)) (taps 0 0 0 16384) 15)) sampled =
    some ([BitVec.ofInt 16 (-32768)], taps (-896) (-896) (-896) 17280, taps 0 0 (-32768) (-32768), false, false) := by
  decide
/-- V-A1. -/
theorem test_asm : got (step (assembling 2 [1, 2, 3] [10, 20, 30] [])) (fun t => (t.PCM, t.OUTLEN, t.STATUS, t.PH)) =
    some ([1, 10, 2, 20, 3, 30], 6, .done, .done) := by decide
/-- V-A3. -/
theorem test_asm_three : got (step (assembling 3 [1, 2] [3, 4] [5, 6])) (fun t => (t.PCM, t.OUTLEN)) =
    some ([1, 3, 5, 2, 4, 6], 6) := by decide
/-- H2: the write of 0x01 starts a decode. -/
theorem test_start : got (step { State.reset with HOST := [.writeCmd 1], POVF := true, OUTLEN := 3 })
    (fun t => (t.PH, t.STATUS, t.POVF, t.OUTLEN)) = some (.chdr, .busy, false, 0) := by decide
/-- H4: refused while BUSY. -/
theorem test_start_busy : got (exec .start { busy .slc with POS := 16 }) (fun t => (t.PH, t.STATUS, t.POS)) =
    some (.slc, .busy, 16) := by decide

end OneStep

section Witnesses

theorem witness_DecodeOfEncodeIsIdentity : (Instr.slc 9 (List.replicate 20 5)).wellFormed = true := by decide
theorem witness_EncodeOfDecodeIsIdentity :
    decode (.stream .chdr [0x71, 0x6F, 0x61, 0x66, 0, 0, 0, 20]) = .ok (.chdr magic 20) := by decide
theorem witness_SliceFieldsAreBitRanges : (0x1234 : ℕ) = (0 : Byte).toNat * 256 ^ 7 + (0 : Byte).toNat * 256 ^ 6 +
    (0 : Byte).toNat * 256 ^ 5 + (0 : Byte).toNat * 256 ^ 4 + (0 : Byte).toNat * 256 ^ 3 + (0 : Byte).toNat * 256 ^ 2 +
    (0x12 : Byte).toNat * 256 + (0x34 : Byte).toNat := by decide

/-- The turn of the sequencer, the script at its end or with the host idle. -/
theorem witness_turn : SequencerTurn (busy .slc) [] ∧ SequencerTurn { busy .slc with HOST := [.idle, .reset] } [.reset] :=
  ⟨.inl ⟨rfl, rfl⟩, .inr rfl⟩

theorem witness_StepRunsDecodedInstruction_unit :
    let bs : List Byte := [0x71, 0x6F, 0x61, 0x66, 0, 0, 0, 20]
    let s := holding .chdr bs
    SequencerTurn s [] ∧ s.PEND = [] ∧ unitLength s.PH = some bs.length ∧ BytesAt s.IN s.POS bs ∧
      decode (.stream s.PH bs) = .ok (.chdr magic 20) ∧ (Instr.chdr magic 20).wellFormed = true :=
  ⟨.inl ⟨rfl, rfl⟩, rfl, rfl, by unfold BytesAt; decide, by decide, rfl⟩
theorem witness_StepRunsDecodedInstruction_asm :
    SequencerTurn (busy .asm) [] ∧ (busy .asm).PEND = [] ∧ (busy .asm).PH = .asm := ⟨.inl ⟨rfl, rfl⟩, rfl, rfl⟩
theorem witness_StepRunsDecodedInstruction_field : ∃ t,
    let s := { busy .slc with PEND := [.sfi 3, .code 2] }
    SequencerTurn s [] ∧ s.PEND = .sfi 3 :: [.code 2] ∧ decode (.field (.sfi 3)) = .ok .sf3 ∧
      exec .sf3 { s with HOST := [], PEND := [.code 2] } = .next t :=
  ⟨_, .inl ⟨rfl, rfl⟩, rfl, rfl, rfl⟩
theorem witness_StepRunsDecodedInstruction_command :
    ({ State.reset with HOST := [.writeCmd 0x01, .idle] } : State).HOST = .writeCmd 0x01 :: [.idle] := rfl

theorem witness_ResetAbandonsAnyDecode :
    ({ busy .slc with HOST := [.reset, .idle] } : State).HOST = .reset :: [.idle] := rfl
theorem witness_StartEstablishesDecode : State.reset.STATUS ≠ .busy := by decide
theorem witness_RefusedCommandsChangeNothing :
    (busy .slc).STATUS = .busy ∧
    (let s := { busy .slc with HOST := [.writeCmd 0x01] }
     s.HOST = .writeCmd 0x01 :: [] ∧ ((0x01 : Byte) ≠ 0x01 ∨ s.STATUS = .busy)) ∧
    (let s := { State.reset with HOST := [.writeCmd 0x02] }
     s.HOST = .writeCmd 0x02 :: [] ∧ ((0x02 : Byte) ≠ 0x01 ∨ s.STATUS = .busy)) := by decide

/-- Room in a position counter of five bits: 31 is the last position it holds. -/
theorem witness_RoomForBytes : (busy .chdr).RoomForBytes 8 ∧
    ({ busy .lms with POS := 15, CFG := { Config.defaults with POS_WIDTH := some 5 } } : State).RoomForBytes 16 :=
  ⟨room_bytes rfl, fun w h => by obtain rfl : 5 = w := Option.some.inj h; decide⟩
theorem witness_RoomForSamples : (busy .slc).RoomForSamples 20 := room_samples rfl

theorem witness_ChdrLoadsTotalAndFrameCount : (busy .chdr).PH = .chdr ∧ (busy .chdr).RoomForBytes 8 :=
  ⟨rfl, room_bytes rfl⟩
theorem witness_MalformedContainerCauses_short :
    let s := ending .chdr [0x71, 0x6F, 0x61, 0x66, 0, 0, 0]
    SequencerTurn s [] ∧ s.PEND = [] ∧ s.PH = .chdr ∧ s.IN.wf = true ∧ s.EOS = true ∧ s.bytesLeft < 8 :=
  ⟨.inl ⟨rfl, rfl⟩, rfl, rfl, by decide, rfl, by decide⟩
theorem witness_MalformedContainerCauses_tag :
    let bs : List Byte := [0x71, 0x6F, 0x61, 0x46, 0, 0, 0, 20]
    let s := holding .chdr bs
    SequencerTurn s [] ∧ s.PEND = [] ∧ s.PH = .chdr ∧ s.IN.wf = true ∧ bs.length = 8 ∧ BytesAt s.IN s.POS bs ∧
      s.RoomForBytes 8 ∧ bs.take 4 ≠ [s.CFG.MAGIC.b0, s.CFG.MAGIC.b1, s.CFG.MAGIC.b2, s.CFG.MAGIC.b3] :=
  ⟨.inl ⟨rfl, rfl⟩, rfl, rfl, by decide, rfl, by unfold BytesAt; decide, room_bytes rfl, by decide⟩
theorem witness_FhdrLoadsFrameParameters_channels :
    (busy .fhdr).PH = .fhdr ∧ (busy .fhdr).RoomForBytes 8 ∧ ((busy .fhdr).FI = 0 ∨ (2 : BitVec 8) = (busy .fhdr).CHANNELS) ∧
      (2 : BitVec 8) ≠ 0 := ⟨rfl, room_bytes rfl, .inl rfl, by decide⟩
theorem witness_FhdrLoadsFrameParameters_noChannels :
    let s := { busy .fhdr with FI := 1, NFRAMES := 3, CHANNELS := 0 }
    s.PH = .fhdr ∧ s.RoomForBytes 8 ∧ (s.FI = 0 ∨ (0 : BitVec 8) = s.CHANNELS) ∧ s.FI + 1 < s.NFRAMES ∧
      ¬ ({ s with FI := 2 } : State).FI + 1 < s.NFRAMES := ⟨rfl, room_bytes rfl, .inr rfl, by decide, by decide⟩
theorem witness_ChannelCountMismatchCause :
    (let s := { busy .fhdr with FI := 1 }
     s.RoomForBytes 8 ∧ 0 < s.FI ∧ (2 : BitVec 8) ≠ s.CHANNELS) ∧
    ∃ t, (busy .fhdr).FI = 0 ∧ (busy .fhdr).ERR = .none ∧ exec (.fhdr 2 44100 20 0) (busy .fhdr) = .next t :=
  ⟨⟨room_bytes rfl, by decide, by decide⟩, _, rfl, rfl, rfl⟩

/-- One state for each clause: a phase, with its last and its last but one index. -/
theorem witness_AdvanceFollowsTheSequence :
    (busy .chdr).PH = .chdr ∧ ((busy .fhdr).PH = .fhdr ∧ (busy .fhdr).CHANNELS ≠ 0) ∧
    (let s := { busy .lms with CHANNELS := 255, CI := 253 }
     (s.PH = .lms ∨ s.PH = .slc) ∧ s.CI.val + 1 < s.CHANNELS.toNat) ∧
    (let s := { busy .lms with CHANNELS := 255, CI := 254 }
     s.PH = .lms ∧ ¬ s.CI.val + 1 < s.CHANNELS.toNat ∧ s.NSLICES ≠ 0) ∧
    (let s := { busy .slc with NSLICES := 2 }
     s.PH = .slc ∧ ¬ s.CI.val + 1 < s.CHANNELS.toNat ∧ s.SI + 1 < s.NSLICES) ∧
    (let s := { busy .slc with NSLICES := 2, SI := 1 }
     s.PH = .slc ∧ ¬ s.CI.val + 1 < s.CHANNELS.toNat ∧ ¬ s.SI + 1 < s.NSLICES) ∧
    (let s := { busy .lms with NSLICES := 0, NFRAMES := 2 }
     s.PH = .lms ∧ ¬ s.CI.val + 1 < s.CHANNELS.toNat ∧ s.NSLICES = 0 ∧ s.FI + 1 < s.NFRAMES ∧
       ¬ ({ s with FI := 1 } : State).FI + 1 < s.NFRAMES) ∧
    (let s := { busy .fhdr with CHANNELS := 0 }
     s.PH = .fhdr ∧ s.CHANNELS = 0 ∧ ¬ s.FI + 1 < s.NFRAMES) ∧
    (busy .asm).PH = .asm ∧ State.reset.PH = .idle := by decide
theorem witness_LmsReplacesChannelState : (busy .lms).PH = .lms ∧ (busy .lms).RoomForBytes 16 :=
  ⟨rfl, room_bytes rfl⟩
/-- NS6: 21 samples are two groups; NS1: none is none. -/
theorem witness_SliceGroupSizes : 1 < sliceGroups 21 ∧ groupSize .truncate 21 1 = 1 ∧ sliceGroups 0 = 0 := by decide
/-- NS6: the second group of 21 samples yields one under truncate, and twenty under full20. -/
theorem witness_SlcDecodesItsGroup_truncate :
    let s := { busy .slc with FSAMPLES := 21, NSLICES := 2, SI := 1 }
    s.PH = .slc ∧ (List.replicate 20 (5 : BitVec 3)).length = 20 ∧
      (s.CFG.TAIL_MODE = .truncate → 1 = min 20 (s.FSAMPLES.toNat - 20 * s.SI)) ∧ (s.CFG.TAIL_MODE = .full20 → 1 = 20) ∧
      s.RoomForBytes 8 ∧ s.RoomForSamples 1 :=
  ⟨rfl, rfl, fun _ => rfl, (fun h => nomatch h), room_bytes rfl, room_samples rfl⟩
theorem witness_SlcDecodesItsGroup_full20 :
    let s := { busy .slc with FSAMPLES := 21, NSLICES := 2, SI := 1, CFG := { Config.defaults with TAIL_MODE := .full20 } }
    s.PH = .slc ∧ (List.replicate 20 (5 : BitVec 3)).length = 20 ∧
      (s.CFG.TAIL_MODE = .truncate → 20 = min 20 (s.FSAMPLES.toNat - 20 * s.SI)) ∧
      (s.CFG.TAIL_MODE = .full20 → 20 = 20) ∧ s.RoomForBytes 8 ∧ s.RoomForSamples 20 :=
  ⟨rfl, rfl, (fun h => nomatch h), fun _ => rfl, room_bytes rfl, room_samples rfl⟩
theorem witness_SliceStepIsItsFieldsInOrder :
    (busy .slc).HOST = [] ∧ (busy .slc).PEND = [] ∧ (busy .slc).RoomForBytes 8 ∧
      (busy .slc).RoomForSamples ((List.replicate 20 (5 : BitVec 3)).take (busy .slc).groupLen).length :=
  ⟨rfl, rfl, room_bytes rfl, room_samples rfl⟩
theorem witness_UnitsConsumeExactlyTheirBytes : ∃ t,
    SequencerTurn (busy .asm) [] ∧ (busy .asm).PEND = [] ∧ step (busy .asm) = .next t := ⟨_, .inl ⟨rfl, rfl⟩, rfl, rfl⟩

theorem witness_ScaleFactorCodesFollowThePowerLaw : (Instr.sf15, (15 : ℕ)) ∈ [(Instr.sf0, (0 : ℕ)), (.sf1, 1), (.sf2, 2),
    (.sf3, 3), (.sf4, 4), (.sf5, 5), (.sf6, 6), (.sf7, 7), (.sf8, 8), (.sf9, 9), (.sf10, 10), (.sf11, 11), (.sf12, 12),
    (.sf13, 13), (.sf14, 14), (.sf15, 15)] := by decide
theorem witness_ResidualCodesRunSample : (Instr.q7, (-7 : ℚ)) ∈ [(Instr.q0, (3 / 4 : ℚ)), (.q1, -3 / 4), (.q2, 5 / 2),
    (.q3, -5 / 2), (.q4, 9 / 2), (.q5, -9 / 2), (.q6, 7), (.q7, -7)] := by simp
theorem witness_DatapathRanges : resid (sfRom 15) 6 = 14336 ∧ predSum (taps (-32768) (-32768) (-32768) (-32768))
    (taps (-32768) (-32768) (-32768) (-32768)) = 4294967296 := by decide
theorem witness_ClearFlagsMeanExactArithmetic : ∃ t,
    let s := channel0 (taps 100 200 300 400) (taps (-1000) 2000 (-3000) 4000) 7
    exec (qInstr 4) s = .next t ∧ t.POVF = false ∧ t.WOVF = false := ⟨_, rfl, by decide, by decide⟩
theorem witness_ZeroPredictorReturnsTheResidual : ∃ t,
    let s := channel0 (taps 0 0 0 0) (taps 0 0 0 0) 15
    s.SF = sfRom 15 ∧ s.H[s.CI] = ⟨0, 0, 0, 0⟩ ∧ s.W[s.CI] = ⟨0, 0, 0, 0⟩ ∧ exec (qInstr 6) s = .next t :=
  ⟨_, by decide, by decide, by decide, rfl⟩

theorem witness_AsmInterleavesTheBuffers :
    let s := assembling 2 [1, 2, 3] [10, 20, 30] []
    s.PH = .asm ∧ ∀ c : Fin NCH_MAX, c.val < s.CHANNELS.toNat → s.bufLen c = 3 := by
  refine ⟨rfl, fun c hc => ?_⟩
  have h : c = 0 ∨ c = 1 := by
    have h2 : c.val = 0 ∨ c.val = 1 := by
      have : c.val < 2 := hc
      omega
    exact h2.imp (fun h => Fin.ext h) (fun h => Fin.ext h)
  rcases h with rfl | rfl <;> decide
theorem witness_AsmRejectsUnequalBuffers :
    let s := assembling 2 [1, 2, 3] [10, 20] []
    (0 : Fin NCH_MAX).val < s.CHANNELS.toNat ∧ (1 : Fin NCH_MAX).val < s.CHANNELS.toNat ∧ s.bufLen 0 ≠ s.bufLen 1 := by
  decide
/-- The balance of the empty buffers in IDLE, from which the first decode starts. -/
theorem witness_BuffersStayBalanced_idle : ∃ t, State.reset.PEND = [] ∧ State.reset.Balanced ∧ step State.reset = .next t :=
  ⟨_, rfl, fun c => by simp [State.reset], rfl⟩
theorem witness_BuffersStayBalanced : ∃ t, (busy .chdr).PEND = [] ∧ (busy .chdr).Balanced ∧ step (busy .chdr) = .next t :=
  ⟨_, rfl, fun c => by simp [busy, State.reset], rfl⟩

theorem witness_TruncatedStreamCauses :
    let s := ending .lms (List.replicate 15 0)
    SequencerTurn s [] ∧ s.PEND = [] ∧ (s.PH = .fhdr ∨ s.PH = .lms ∨ s.PH = .slc) ∧ s.IN.wf = true ∧ s.EOS = true ∧
      unitLength s.PH = some 16 ∧ s.bytesLeft < 16 :=
  ⟨.inl ⟨rfl, rfl⟩, rfl, by decide, by decide, rfl, rfl, by decide⟩
theorem witness_WaitingChangesNothing :
    let s := holding .chdr (List.replicate 7 0)
    SequencerTurn s [] ∧ s.PEND = [] ∧ s.IN.wf = true ∧ s.EOS = false ∧ unitLength s.PH = some 8 ∧ s.bytesLeft < 8 :=
  ⟨.inl ⟨rfl, rfl⟩, rfl, by decide, rfl, rfl, by decide⟩
theorem witness_NoStepInEndedPhases : SequencerTurn State.reset [] ∧ State.reset.PEND = [] ∧
    (State.reset.PH = .idle ∨ State.reset.PH = .done ∨ State.reset.PH = .failed) := ⟨.inl ⟨rfl, rfl⟩, rfl, .inl rfl⟩
theorem witness_EveryFailureDiscardsTheOutput : ∃ t,
    step (ending .slc []) = .next t ∧ (ending .slc []).STATUS ≠ .failed ∧ t.STATUS = .failed := ⟨_, rfl, by decide, rfl⟩
theorem witness_EndedDecodeIsImmutable : ∃ t,
    let s := { State.reset with PH := .done, STATUS := .done, HOST := [.offer [1, 2]] }
    s.PEND = [] ∧ (s.PH = .done ∨ s.PH = .failed) ∧ ¬ hostTakesOver s ∧ step s = .next t := by
  refine ⟨_, rfl, .inl rfl, ?_, rfl⟩
  rintro (⟨r, h⟩ | ⟨r, h⟩) <;> cases h
set_option maxRecDepth 8000 in
/-- Past 31 in a counter of five bits; a twentieth sample beyond a capacity of 19. -/
theorem witness_CapacityExceededCauses :
    (let s := { busy .chdr with POS := 24, CFG := { Config.defaults with POS_WIDTH := some 5 } }
     ¬ s.RoomForBytes 8 ∧ ¬ s.RoomForBytes 16) ∧
    (let s := { busy .slc with CFG := { Config.defaults with PCM_CAPACITY := some 19 } }
     (List.replicate 20 (0 : BitVec 3)).length = 20 ∧ ¬ s.RoomForSamples s.groupLen) :=
  ⟨⟨fun h => absurd (h 5 rfl) (by decide), fun h => absurd (h 5 rfl) (by decide)⟩,
    rfl, fun h => absurd (h 19 rfl) (by decide)⟩
theorem witness_UnboundedNeverExceedsCapacity : ∃ t,
    let s := { State.reset with PH := .failed, STATUS := .failed, ERR := .capacityExceeded }
    s.CFG.PCM_CAPACITY = none ∧ s.CFG.POS_WIDTH = none ∧ step s = .next t ∧ t.ERR = .capacityExceeded :=
  ⟨_, rfl, rfl, rfl, rfl⟩

/-- `STATUS` and `ERR` in each of their values. -/
theorem witness_RegisterReadsReturnTheRegister_codes :
    (let s := { State.reset with HOST := [.readReg .STATUS] }
     s.HOST = .readReg .STATUS :: [] ∧ s.STATUS = .idle ∧ ({ s with STATUS := .busy } : State).STATUS = .busy ∧
       ({ s with STATUS := .done } : State).STATUS = .done ∧ ({ s with STATUS := .failed } : State).STATUS = .failed) ∧
    (let s := { State.reset with HOST := [.readReg .ERR] }
     s.HOST = .readReg .ERR :: [] ∧ s.ERR = .none ∧
       [ErrCode.malformedContainer, .truncatedStream, .channelCountMismatch, .channelLengthMismatch,
         .capacityExceeded].all (fun e => ({ s with ERR := e } : State).ERR == e) = true) := by decide
/-- Each register with a window, in it. -/
theorem witness_RegisterReadsReturnTheRegister_windows :
    let s := { State.reset with
      PH := .done, STATUS := .done, POVF := true, WOVF := true
      CHANNELS := 255, RATE := 44100, TOTAL := 20, OUTLEN := 2, PCM := [7, 9] }
    ({ s with HOST := [.readReg .FLAGS] } : State).HOST = .readReg .FLAGS :: [] ∧
    ({ s with HOST := [.readReg .CHANNELS] } : State).HOST = .readReg .CHANNELS :: [] ∧
    ({ s with HOST := [.readReg .RATE] } : State).HOST = .readReg .RATE :: [] ∧
    ({ s with HOST := [.readReg .OUTLEN] } : State).HOST = .readReg .OUTLEN :: [] ∧
    ({ s with HOST := [.readReg .TOTAL] } : State).HOST = .readReg .TOTAL :: [] ∧
    (s.STATUS = .done ∨ s.STATUS = .failed) ∧ s.STATUS = .done ∧ s.STATUS ≠ .busy ∧
    3 = s.POVF.toNat + 2 * s.WOVF.toNat ∧ 255 = s.CHANNELS.toNat ∧ 44100 = s.RATE.toNat ∧ 2 = s.OUTLEN ∧
    20 = s.TOTAL.toNat := by decide
/-- A register read outside its window. -/
theorem witness_RegisterReadsReturnTheRegister_outside :
    ({ busy .slc with HOST := [.readReg .RATE] } : State).HOST = .readReg .RATE :: [] ∧ HostReg.RATE ≠ .CMD := by decide
/-- The numbers of rules R26 and R221. -/
theorem test_codes : [Status.idle, .busy, .done, .failed].map Status.code = [0, 1, 2, 3] ∧
    [ErrCode.none, .malformedContainer, .truncatedStream, .channelCountMismatch, .channelLengthMismatch,
      .capacityExceeded].map ErrCode.code = [0, 1, 2, 3, 4, 5] := by decide
theorem witness_PcmByteReadsFollowTheByteOrder :
    let s := { State.reset with PH := .done, STATUS := .done, OUTLEN := 1, PCM := [0x1234], HOST := [.readPcmByte 0 true] }
    let t := { s with CFG := { Config.defaults with HOST_PCM_BYTE_ORDER := .little } }
    s.HOST = .readPcmByte 0 true :: [] ∧ s.STATUS = .done ∧ 0 < s.OUTLEN ∧ s.PCM[0]? = some 0x1234 ∧
      s.CFG.HOST_PCM_BYTE_ORDER = .big ∧ t.HOST = .readPcmByte 0 true :: [] ∧ t.STATUS = .done ∧ 0 < t.OUTLEN ∧
      t.PCM[0]? = some 0x1234 ∧ t.CFG.HOST_PCM_BYTE_ORDER = .little := by decide
/-- A word 1234 read in bytes, lower address first, in either order. -/
theorem test_pcm_byte : [ByteOrder.big, .little].map (fun o => [pcmByte o 0x1234 false, pcmByte o 0x1234 true]) =
    [[0x12, 0x34], [0x34, 0x12]] := by decide
theorem witness_PcmReadsReturnTheWord :
    let s := { State.reset with PH := .done, STATUS := .done, OUTLEN := 2, PCM := [7, 9], HOST := [.readPcm 1] }
    s.HOST = .readPcm 1 :: [] ∧ s.STATUS = .done ∧ 1 < s.OUTLEN ∧ s.PCM[1]? = some 9 := by decide
theorem witness_ReadsHaveNoSideEffect :
    ({ State.reset with HOST := [.readReg .CMD] } : State).HOST = .readReg .CMD :: [] ∧ ∃ t,
      let s := { State.reset with HOST := [.readReg .STATUS] }
      (∃ r, HostEvent.readReg .STATUS = .readReg r) ∧ s.HOST = .readReg .STATUS :: [] ∧ step s = .next t :=
  ⟨rfl, _, ⟨_, rfl⟩, rfl, rfl⟩
theorem witness_OfferedBytesTakeTheNextOffsets :
    let s := { holding .chdr [1, 2, 3] with HOST := [.offer [4, 5]] }
    s.HOST = .offer [4, 5] :: [] ∧ s.EOS = false ∧ s.IN.wf = true := by decide

theorem witness_reset_inv : State.reset.Inv where
  status := rfl
  err := by decide
  outlen := rfl
  unpublished := fun _ => rfl
  rate := by decide
  frames := by decide
  groups := by decide
  nframes := by decide
  nslices := by decide
  stream := by decide
  settled := ⟨rfl, rfl⟩
theorem witness_InvariantKeptByEveryStep : ∃ t, State.reset.Inv ∧ step State.reset = .next t := ⟨_, witness_reset_inv, rfl⟩
theorem witness_FlagsClearedOnlyByStartAndReset : ∃ t,
    let s := { busy .asm with POVF := true, WOVF := true }
    step s = .next t ∧ ¬ hostTakesOver s ∧ s.POVF = true ∧ s.WOVF = true := by
  refine ⟨_, rfl, ?_, rfl, rfl⟩
  rintro (⟨r, h⟩ | ⟨r, h⟩) <;> cases h
theorem witness_OnlyTheCurrentChannelChanges : ∃ t,
    let s := holding .lms (List.replicate 16 1)
    step s = .next t ∧ ¬ hostTakesOver s ∧ (t.PH = .failed → s.PH = .failed) ∧ (1 : Fin NCH_MAX) ≠ s.CI := by
  refine ⟨_, rfl, ?_, (fun h => nomatch h), by decide⟩
  rintro (⟨r, h⟩ | ⟨r, h⟩) <;> cases h
theorem witness_ParametersAreConstant : ∃ t, step State.reset = .next t := ⟨_, rfl⟩
theorem witness_EndedStreamEndsTheDecode :
    let s := ending .chdr (List.replicate 7 0)
    s.HOST = [] ∧ s.PEND = [] ∧ s.IN.wf = true ∧ s.EOS = true ∧ statusOf s.PH = .busy := by decide
theorem witness_DecodesAreIndependentOfThePast :
    let s := { State.reset with HOST := decodeScript streamE5b }
    let t := { s with PH := .failed, STATUS := .failed, TOTAL := 99 }
    s.CFG = t.CFG ∧ s.STATUS ≠ .busy ∧ t.STATUS ≠ .busy ∧ s.PEND = [] ∧ t.PEND = [] ∧ s.HOST = decodeScript streamE5b ∧
      t.HOST = decodeScript streamE5b := by decide
theorem witness_TrailingBytesAreIgnored : State.reset.STATUS ≠ .busy ∧ State.reset.PEND = [] ∧
    resultAfter 6 { State.reset with HOST := decodeScript streamE5b } = some (.done [] 0 44100 0 0 false false) := by decide
theorem witness_EveryProperPrefixFails : ∃ t, State.reset.STATUS ≠ .busy ∧ State.reset.PEND = [] ∧
    Host.Core.run Sys2Proof.core 6 { State.reset with HOST := decodeScript streamE5b } = .next t ∧ t.STATUS = .done ∧
    t.HOST = [] ∧ t.POS = streamE5b.length ∧ 7 < streamE5b.length ∧ 15 < streamE5b.length :=
  ⟨_, by decide, rfl, rfl, rfl, rfl, rfl, by decide, by decide⟩

end Witnesses

end Sys2Proof.Tests
end

section
/-! The step on the sequencer's turn (rules R16, R102, R123): what is fetched, and that the step executes it. -/

namespace Sys2Proof
namespace Machine

open Host (Outcome)

/-- On the sequencer's turn the script advances and the sequencer steps (log entry 4). -/
theorem step_of_sequencerTurn {s : State} {rest : List HostEvent} (h : SequencerTurn s rest) :
    step s = sequencerStep { s with HOST := rest } := by
  obtain ⟨hs, rfl⟩ | hs := h
  · rw [step_nil hs, ← hs]
  · rw [step_cons hs]; rfl

theorem sequencerStep_of_fetch {s : State} {f : Fetched} {i : Instr} (hf : fetch s = some f) (hd : decode f = .ok i) :
    sequencerStep s = afterExec f (exec i (beforeExec s)) := by
  simp only [sequencerStep, hf, execFetched, hd]

theorem fetch_of_pending {s : State} {f : SubField} {fs : List SubField} (h : s.PEND = f :: fs) :
    fetch s = some (.field f) := by
  simp only [fetch, h]

theorem fetch_of_asm {s : State} (hp : s.PEND = []) (ha : s.PH = .asm) : fetch s = some .implicit := by
  simp only [fetch, hp, ha, if_true]

/-- A phase that consumes a unit fetches the unit's bytes at `POS` (rule R61). -/
theorem fetch_of_bytesAt {s : State} {bs : List Byte} (hp : s.PEND = []) (hu : unitLength s.PH = some bs.length)
    (hb : BytesAt s.IN s.POS bs) : fetch s = some (.stream s.PH bs) := by
  have hne : s.PH ≠ .asm := fun ha => by simp [ha, unitLength] at hu
  have hbytes : unitBytes s = some bs := by
    rw [unitBytes, hu]
    exact Memory.readRange_eq_some.mpr ⟨rfl, hb⟩
  simp only [fetch, hp, if_neg hne, hbytes, Option.map_some]

theorem beforeExec_of_settled {s : State} (h : s.PEND = []) : beforeExec s = s := by
  rw [beforeExec, h, List.tail_nil, ← h]

theorem beforeExec_of_pending {s : State} {f : SubField} {fs : List SubField} (h : s.PEND = f :: fs) :
    beforeExec s = { s with PEND := fs } := by
  rw [beforeExec, h, List.tail_cons]

@[simp] theorem afterExec_stream (ph : Phase) (bs : List Byte) (o : Outcome State Fault Refusal) :
    afterExec (.stream ph bs) o = o := rfl

@[simp] theorem afterExec_implicit (o : Outcome State Fault Refusal) : afterExec .implicit o = o := rfl

@[simp] theorem afterExec_field_next (f : SubField) (t : State) :
    afterExec (.field f) (.next t) = .next (afterField t) := rfl

/-- A unit's step is the meaning of the instruction its bytes decode to (rules R16, R102). -/
theorem sequencerStep_unit {s : State} {bs : List Byte} {i : Instr} (hp : s.PEND = [])
    (hu : unitLength s.PH = some bs.length) (hb : BytesAt s.IN s.POS bs) (hd : decode (.stream s.PH bs) = .ok i) :
    sequencerStep s = exec i s := by
  rw [sequencerStep_of_fetch (fetch_of_bytesAt hp hu hb) hd, afterExec_stream, beforeExec_of_settled hp]

/-- The step in phase ASM (rule R123). -/
theorem sequencerStep_asm {s : State} (hp : s.PEND = []) (ha : s.PH = .asm) : sequencerStep s = exec .asm s := by
  rw [sequencerStep_of_fetch (fetch_of_asm hp ha) rfl, afterExec_implicit, beforeExec_of_settled hp]

/-- The step of a field a slice has still to run: the field leaves the list, and the slice ends with its last field
(log entry 10). -/
theorem sequencerStep_pending {s t : State} {f : SubField} {fs : List SubField} {i : Instr} (hp : s.PEND = f :: fs)
    (hd : decode (.field f) = .ok i) (ht : exec i { s with PEND := fs } = .next t) :
    sequencerStep s = .next (afterField t) := by
  rw [sequencerStep_of_fetch (fetch_of_pending hp) hd, beforeExec_of_pending hp, ht, afterExec_field_next]

/-- A write of `0x01` to `CMD` executes START (rules R105, R210). -/
theorem step_writeCmd_start {s : State} {rest : List HostEvent} (h : s.HOST = .writeCmd 0x01 :: rest) :
    step s = exec .start { s with HOST := rest } := by
  calc step s = commandStep 0x01 { s with HOST := rest } := step_cons h
    _ = execStart { s with HOST := rest } := by rw [commandStep_eq, if_pos rfl]
    _ = exec .start { s with HOST := rest } := rfl

/-- Settles O7: what is fetched on the sequencer's turn is what the step executes, for each kind of fetched word. -/
theorem stepRunsDecodedInstruction : Obligations.StepRunsDecodedInstruction :=
  ⟨fun _ _ _ _ hturn hp hu hb hd _ => (step_of_sequencerTurn hturn).trans (sequencerStep_unit hp hu hb hd),
   fun _ _ hturn hp ha => (step_of_sequencerTurn hturn).trans (sequencerStep_asm hp ha),
   fun _ _ _ _ _ _ hturn hp hd ht => (step_of_sequencerTurn hturn).trans (sequencerStep_pending hp hd ht),
   fun _ _ h => step_writeCmd_start h⟩

end Machine
end Sys2Proof
end

section
/-! The reset values (rule R42). -/

namespace Sys2Proof
namespace Machine

/-- The buffers of the reset state are `NCH_MAX` copies of the empty list. Stated for a `Nat` index, the form simp brings
a `Fin` index to. -/
@[simp] theorem reset_CHBUF_getElem (c : Nat) (hc : c < NCH_MAX) : State.reset.CHBUF[c] = [] :=
  Vector.getElem_replicate hc

/-- Settles O8: the scalar entries and `PCM` are fields `State.reset` writes out; the buffers are
`reset_CHBUF_getElem`. -/
theorem resetLeavesSpecifiedValues : Obligations.ResetLeavesSpecifiedValues :=
  ⟨rfl, rfl, rfl, rfl, rfl, rfl, rfl, fun c => reset_CHBUF_getElem c c.isLt⟩

end Machine
end Sys2Proof
end

section
/-! A one-byte read of a PCM word (rules R65, R213). -/

namespace Sys2Proof
namespace Machine

section ByteOfWord

variable (v : S16) (upper : Bool)

/-- The two halves of a word as numbers; rule R65 says at which address each of them stands. -/
theorem toNat_extract_upperHalf : (v.extractLsb' 8 8).toNat = v.toNat / 256 := by
  have hv : v.toNat / 256 < 256 := by omega
  rw [BitVec.extractLsb'_toNat, Nat.shiftRight_eq_div_pow]
  exact Nat.mod_eq_of_lt hv

theorem toNat_extract_lowerHalf : (v.extractLsb' 0 8).toNat = v.toNat % 256 := by
  rw [BitVec.extractLsb'_toNat, Nat.shiftRight_zero]

/-- Big-endian: the less significant byte is the one at the higher address. -/
theorem pcmByte_big_toNat :
    (pcmByte .big v upper).toNat = if upper then v.toNat % 256 else v.toNat / 256 := by
  cases upper with
  | false => exact toNat_extract_upperHalf v
  | true => exact toNat_extract_lowerHalf v

/-- The little-endian order is the big-endian one with the two addresses exchanged. -/
theorem pcmByte_little : pcmByte .little v upper = pcmByte .big v !upper := by
  cases upper <;> rfl

theorem pcmByte_little_toNat :
    (pcmByte .little v upper).toNat = if upper then v.toNat / 256 else v.toNat % 256 := by
  rw [pcmByte_little, pcmByte_big_toNat]
  cases upper <;> rfl

end ByteOfWord

/-- What the host may read as `PCM[k]`, and when (rules R71, R213). -/
theorem pcmReadable_eq_some {k : Nat} {s : State} {v : S16} :
    pcmReadable k s = some v ↔ s.STATUS = .done ∧ k < s.OUTLEN ∧ s.PCM[k]? = some v := by
  simp [pcmReadable, and_assoc]

/-- A byte read of a readable word answers the byte at the address asked for. -/
theorem readPcmByte_of_readable {k : Nat} {s : State} {v : S16} (upper : Bool) (h : pcmReadable k s = some v) :
    readPcmByte k upper s = replyKnown s (.pcmByte k upper (pcmByte s.CFG.HOST_PCM_BYTE_ORDER v upper)) := by
  simp only [readPcmByte, h]

/-- The step of a byte read of a readable word: the script advances and the answer is recorded. -/
theorem step_readPcmByte {s : State} {rest : List HostEvent} {k : Nat} {upper : Bool} {v : S16}
    (hs : s.HOST = .readPcmByte k upper :: rest) (hr : pcmReadable k s = some v) :
    step s = .next { s with
      HOST := rest
      REPLIES := .pcmByte k upper (pcmByte s.CFG.HOST_PCM_BYTE_ORDER v upper) :: s.REPLIES } := by
  calc step s = .next (readPcmByte k upper { s with HOST := rest }) := step_cons hs
    _ = .next (replyKnown { s with HOST := rest }
          (.pcmByte k upper (pcmByte s.CFG.HOST_PCM_BYTE_ORDER v upper))) :=
        congrArg _ (readPcmByte_of_readable upper hr)

/-- Settles O53: the step answers `pcmByte` of the word, whose value in each order `pcmByte_big_toNat` and
`pcmByte_little_toNat` give (log entry 6). -/
theorem pcmByteReadsFollowTheByteOrder : Obligations.PcmByteReadsFollowTheByteOrder := by
  intro s rest k upper v hs hdone hk hv
  have hr : pcmReadable k s = some v := pcmReadable_eq_some.mpr ⟨hdone, hk, hv⟩
  refine ⟨_, step_readPcmByte hs hr, fun hbig => ?_, fun hlittle => ?_⟩
  · rw [hbig, pcmByte_big_toNat]
  · rw [hlittle, pcmByte_little_toNat]

end Machine
end Sys2Proof
end

section
/-! The fields of a slice as bit ranges of its big-endian value (rule R98). -/

namespace Sys2Proof

theorem decode_slc {bs : List Byte} (h : bs.length = Config.SLC_LEN) : decode (.stream .slc bs) = .ok (readSlc bs) :=
  if_pos h

/-- Eight bytes have a value below `2^64`, so nothing of `V` stands above the index. -/
theorem sliceSfi_toNat {V : Nat} (h : V < 2 ^ 64) : (sliceSfi V).toNat = V / 2 ^ 60 := by
  have hlt : V / 2 ^ 60 < 2 ^ 4 := by omega
  rw [sliceSfi, BitVec.toNat_ofNat, Nat.shiftRight_eq_div_pow, Nat.mod_eq_of_lt hlt]

theorem sliceCode_toNat (V i : Nat) : (sliceCode V i).toNat = V / 2 ^ (57 - 3 * i) % 8 := by
  rw [sliceCode, BitVec.toNat_ofNat, Nat.shiftRight_eq_div_pow]

/-- Playback order: code `i` of the list is the `i`-th three-bit field below the index (rule R153). -/
theorem sliceCodes_getElem? {i : Nat} (V : Nat) (h : i < Config.SLICE_LEN) :
    (sliceCodes V)[i]? = some (sliceCode V i) := by
  rw [sliceCodes, List.getElem?_map, List.getElem?_range h, Option.map_some]

/-- The fold of rule R95 over eight bytes, written out as the sum of the bytes at their weights. -/
theorem be_eight (b0 b1 b2 b3 b4 b5 b6 b7 : Byte) :
    be [b0, b1, b2, b3, b4, b5, b6, b7] =
      b0.toNat * 256 ^ 7 + b1.toNat * 256 ^ 6 + b2.toNat * 256 ^ 5 + b3.toNat * 256 ^ 4 +
        b4.toNat * 256 ^ 3 + b5.toNat * 256 ^ 2 + b6.toNat * 256 + b7.toNat := by
  simp only [be_cons, be_nil, List.length_cons, List.length_nil]
  ring

/-- Settles O3: the decoder reads both fields off `be` of the bytes, and `be_eight` says that this is `V`. -/
theorem sliceFieldsAreBitRanges : Obligations.SliceFieldsAreBitRanges := by
  intro b0 b1 b2 b3 b4 b5 b6 b7
  refine ⟨_, _, decode_slc rfl, Machine.sliceCodes_length _, fun V hV => ?_⟩
  have hbe : be [b0, b1, b2, b3, b4, b5, b6, b7] = V := (be_eight ..).trans hV.symm
  have hlt : V < 2 ^ 64 :=
    calc V = be [b0, b1, b2, b3, b4, b5, b6, b7] := hbe.symm
      _ < 256 ^ 8 := be_lt _
      _ = 2 ^ 64 := by norm_num
  rw [hbe]
  refine ⟨sliceSfi_toNat hlt, fun i hi => ?_⟩
  rw [sliceCodes_getElem? V hi, Option.map_some, sliceCode_toNat]

end Sys2Proof
end

section
/-! What `advance()` answers in each phase (rule R123). -/

namespace Sys2Proof
namespace Machine

section Sequence

variable {s : State}

/-- Where the frame is over: a frame without channels, the last LMS of a frame without slice groups, and the last
channel's slice of the last group. -/
theorem advance_eq_frameEnd
    (h : (s.PH = .fhdr ∧ s.CHANNELS = 0) ∨
      (s.PH = .lms ∧ ¬ s.CI.val + 1 < s.CHANNELS.toNat ∧ s.NSLICES = 0) ∨
      (s.PH = .slc ∧ ¬ s.CI.val + 1 < s.CHANNELS.toNat ∧ ¬ s.SI + 1 < s.NSLICES)) :
    advance s = frameEnd s := by
  obtain ⟨hph, hch⟩ | ⟨hph, hci, hns⟩ | ⟨hph, hci, hsi⟩ := h
  · have hzero : s.CHANNELS.toNat = 0 := congrArg BitVec.toNat hch
    rw [advance_fhdr hph, if_pos hzero]
  · rw [advance_lms hph, dif_neg hci, if_pos hns]
  · rw [advance_slc hph, dif_neg hci, if_neg hsi]

theorem advance_fhdr_of_channels (hph : s.PH = .fhdr) (hch : s.CHANNELS ≠ 0) :
    advance s = { s with CI := 0, PH := .lms } := by
  have hne : s.CHANNELS.toNat ≠ 0 := fun h => hch (BitVec.eq_of_toNat_eq h)
  rw [advance_fhdr hph, if_neg hne]

/-- LMS and SLC go through the channels alike. -/
theorem advance_nextChannel (hph : s.PH = .lms ∨ s.PH = .slc) (hci : s.CI.val + 1 < s.CHANNELS.toNat) :
    advance s = { s with CI := nextChannel s hci } := by
  obtain hph | hph := hph
  · rw [advance_lms hph, dif_pos hci]
  · rw [advance_slc hph, dif_pos hci]

theorem advance_lms_last (hph : s.PH = .lms) (hci : ¬ s.CI.val + 1 < s.CHANNELS.toNat) (hns : s.NSLICES ≠ 0) :
    advance s = { s with SI := 0, CI := 0, PH := .slc } := by
  rw [advance_lms hph, dif_neg hci, if_neg hns]

theorem advance_slc_last (hph : s.PH = .slc) (hci : ¬ s.CI.val + 1 < s.CHANNELS.toNat) (hsi : s.SI + 1 < s.NSLICES) :
    advance s = { s with SI := s.SI + 1, CI := 0 } := by
  rw [advance_slc hph, dif_neg hci, if_pos hsi]

/-- No step is enabled in these phases, so nothing advances from them. -/
theorem advance_of_notBusy (hph : s.PH = .idle ∨ s.PH = .done ∨ s.PH = .failed) : advance s = s := by
  obtain hph | hph | hph := hph <;> simp only [advance, hph]

theorem frameEnd_next (h : s.FI + 1 < s.NFRAMES) : frameEnd s = { s with FI := s.FI + 1, PH := .fhdr } :=
  if_pos h

theorem frameEnd_last (h : ¬ s.FI + 1 < s.NFRAMES) : frameEnd s = { s with PH := .asm } :=
  if_neg h

end Sequence

/-- Settles O17: one lemma per arm of `advance()`, and `frameEnd`'s two cases where the frame is over. -/
theorem advanceFollowsTheSequence : Obligations.AdvanceFollowsTheSequence :=
  ⟨fun _ => advance_chdr, fun _ => advance_fhdr_of_channels,
   fun s hph hci => ⟨nextChannel s hci, nextChannel_val s hci, advance_nextChannel hph hci⟩,
   fun _ => advance_lms_last, fun _ => advance_slc_last,
   fun _ hover => ⟨fun h => (advance_eq_frameEnd hover).trans (frameEnd_next h),
     fun h => (advance_eq_frameEnd hover).trans (frameEnd_last h)⟩,
   fun _ => advance_asm, fun _ => advance_of_notBusy⟩

end Machine
end Sys2Proof
end

section
/-! CHDR with the right tag, and the frame count law (rules R121, R122). -/

namespace Sys2Proof
namespace Machine

/-- CHDR with the right tag completes where `POS` has room for its bytes (rules R121, R238). -/
theorem exec_chdr_of_magic (total : BitVec 32) {s : State} (hroom : s.RoomForBytes 8) :
    exec (.chdr s.CFG.MAGIC total) s = .next (advance (chdrLatched total s)) := by
  have hfits : s.posFits Config.CHDR_LEN = true := (posFits_iff s 8).mpr hroom
  obtain ⟨-, -, hexec⟩ | ⟨-, hne, -⟩ | ⟨hfull, -⟩ := execChdr_cases s.CFG.MAGIC total s
  · exact hexec
  · exact absurd rfl hne
  · simp [hfits] at hfull

@[simp] theorem chdrLatched_NFRAMES (total : BitVec 32) (s : State) :
    (chdrLatched total s).NFRAMES = frameCount total := rfl

/-- The two halves of the literal formula add up to one, so rounding half up never meets a tie: the count is the floor
of `total / 5120`, plus one. -/
theorem frameCount_eq_roundHalfUp (total : BitVec 32) :
    (frameCount total : ℤ) = ⌊(((total.toNat : ℚ) / 256 / 20 + 1 / 2) + 1 / 2)⌋ := by
  have hsum : ((total.toNat : ℚ) / 256 / 20 + 1 / 2) + 1 / 2 = (total.toNat : ℚ) / (5120 : ℕ) + 1 := by
    push_cast; ring
  rw [hsum, Int.floor_add_one, Rat.floor_natCast_div_natCast]
  rfl

/-- Settles O13: the completed CHDR leaves `frameCount`, which is the rational formula by `frameCount_eq_roundHalfUp`
and the integer law by definition. -/
theorem frameCountIsRoundHalfUp : Obligations.FrameCountIsRoundHalfUp := by
  intro total s _ hroom
  have hcount : (advance (chdrLatched total s)).NFRAMES = frameCount total := by simp
  refine ⟨_, exec_chdr_of_magic total hroom, ?_, hcount⟩
  rw [hcount, frameCount_eq_roundHalfUp]

end Machine
end Sys2Proof
end

section
/-! Slice groups and the tail (rule R126). -/

namespace Sys2Proof
namespace Machine

theorem groupSize_truncate (ns : BitVec 16) (si : Nat) :
    groupSize .truncate ns si = min 20 (ns.toNat - 20 * si) := rfl

theorem groupSize_full20 (ns : BitVec 16) (si : Nat) : groupSize .full20 ns si = 20 := rfl

theorem sliceGroups_eq (ns : BitVec 16) : sliceGroups ns = (ns.toNat + 19) / 20 := rfl

/-- Under truncate the first `g` groups yield twenty samples each until the frame's samples are used up. -/
theorem sum_groupSize_truncate (ns : BitVec 16) (g : Nat) :
    ((List.range g).map (groupSize .truncate ns)).sum = min (20 * g) ns.toNat := by
  induction g with
  | zero => simp
  | succ g ih =>
    rw [List.range_succ, List.map_append, List.sum_append, ih, List.map_singleton, List.sum_singleton,
      groupSize_truncate]
    omega

theorem sum_groupSize_full20 (ns : BitVec 16) (g : Nat) :
    ((List.range g).map (groupSize .full20 ns)).sum = 20 * g := by
  induction g with
  | zero => rfl
  | succ g ih =>
    rw [List.range_succ, List.map_append, List.sum_append, ih, List.map_singleton, List.sum_singleton,
      groupSize_full20]
    omega

/-- Settles O19: `sliceGroups` is the ceiling of `ns / 20`, so each group starts below `ns` and the groups together
reach it. -/
theorem sliceGroupSizes : Obligations.SliceGroupSizes := by
  intro ns
  have hupper : 20 * sliceGroups ns < ns.toNat + 20 := by rw [sliceGroups_eq]; omega
  have hlower : ns.toNat ≤ 20 * sliceGroups ns := by rw [sliceGroups_eq]; omega
  refine ⟨hupper, hlower, fun si hsi => ⟨?_, groupSize_truncate ns si, groupSize_full20 ns si⟩, ?_,
    sum_groupSize_full20 ns _⟩
  · rw [groupSize_truncate]; omega
  · rw [sum_groupSize_truncate, Nat.min_eq_right hlower]

end Machine
end Sys2Proof
end

section
/-! One SAMPLE of the datapath obeys the spec's arithmetic over integers and rationals (rules R169, R180 to R186). -/

namespace Sys2Proof
namespace Machine

section Rounding

/-- The arithmetic shift is the floor of the exact quotient (rule R11). -/
theorem asr_eq_floor (v : Int) (k : Nat) : asr v k = ⌊(v : ℚ) / (2 ^ k : ℕ)⌋ := by
  rw [Rat.floor_intCast_div_natCast, asr]; norm_cast

/-- The source's table is a quarter of the ROM (rules R167, R168). -/
theorem dqTable_eq (q : BitVec 3) : dqTable q = (dqRom q : ℚ) / 4 := by
  obtain rfl | rfl | rfl | rfl | rfl | rfl | rfl | rfl := code_cases q <;>
    simp [dqTable, dqRom] <;> norm_num

/-- Ties away from zero treat both signs alike. -/
theorem rha_neg (x : ℚ) : rha (-x) = -rha x := by
  obtain hx | rfl | hx := lt_trichotomy x 0
  · rw [rha, rha, if_pos (by linarith), if_neg (by linarith), neg_neg]
  · norm_num [rha]
  · rw [rha, rha, if_neg (by linarith), if_pos (by linarith), neg_neg]

/-- A non-negative quarter is rounded by adding two and shifting (rule R170). -/
theorem rha_natCast_div_four (m : Nat) : rha ((m : ℚ) / 4) = ((m + 2) >>> 2 : Nat) := by
  have hhalf : (m : ℚ) / 4 + 1 / 2 = ((m + 2 : ℕ) : ℚ) / (4 : ℕ) := by push_cast; ring
  rw [rha, if_pos (by positivity), hhalf, Rat.floor_natCast_div_natCast, Nat.shiftRight_eq_div_pow]
  rfl

/-- RESID is the rounded product: the ROM's sign is taken off, the magnitude rounded, the sign put back (rule R169). -/
theorem resid_eq_rha (sf : BitVec 12) (q : BitVec 3) : resid sf q = rha ((sf.toNat : ℚ) * dqTable q) := by
  have hmag : rha (((sf.toNat * (dqRom q).natAbs : ℕ) : ℚ) / 4) = ((sf.toNat * (dqRom q).natAbs + 2) >>> 2 : Nat) :=
    rha_natCast_div_four _
  rw [resid, ← hmag, dqTable_eq]
  split
  case isTrue hneg =>
    have habs : (((dqRom q).natAbs : ℕ) : ℚ) = -(dqRom q : ℚ) := by
      rw [← Int.cast_natCast, Int.ofNat_natAbs_of_nonpos hneg.le, Int.cast_neg]
    rw [← rha_neg]; push_cast [habs]; congr 1; ring
  case isFalse hpos =>
    have habs : (((dqRom q).natAbs : ℕ) : ℚ) = (dqRom q : ℚ) := by
      rw [← Int.cast_natCast, Int.natAbs_of_nonneg (not_lt.mp hpos)]
    push_cast [habs]; congr 1; ring

end Rounding

section Stages

theorem predSum_eq_exactSum (h w : Taps) : predSum h w = exactSum h w := rfl

/-- PREDICT (rule R181). -/
theorem predict_eq_floor (h w : Taps) : predict h w = ⌊(exactSum h w : ℚ) / 8192⌋ := by
  rw [predict, asr_eq_floor, predSum_eq_exactSum]; norm_num

/-- DELTA (rule R184). -/
theorem delta_eq_floor (r : Int) : delta r = ⌊(r : ℚ) / 16⌋ := by
  rw [delta, asr_eq_floor]; norm_num

theorem weightSum_delta (h w : S16) (r : Int) : weightSum h w (delta r) = exactWeight h w r := by
  unfold weightSum exactWeight
  rw [delta_eq_floor]
  split
  case isTrue => ring
  case isFalse => rfl

theorem clamp_eq {lo hi : Int} (h : lo ≤ hi) (v : Int) : clamp v lo hi = max lo (min hi v) := by
  unfold clamp; split_ifs <;> omega

/-- A reconstructed sample fits its register, so storing it loses nothing (rule R183). -/
theorem toInt_wrap16_recon (p r : Int) : (wrap16 (recon p r)).toInt = max (-32768) (min 32767 (p + r)) := by
  have hrecon : recon p r = max (-32768) (min 32767 (p + r)) := clamp_eq (by decide) _
  rw [wrap16, BitVec.toInt_ofInt, hrecon]
  apply Int.bmod_eq_of_le <;> norm_num

theorem holdsWrapped_wrap16 (u : Int) : HoldsWrapped (wrap16 u) u := by
  rw [HoldsWrapped, wrap16, BitVec.toInt_ofInt]
  exact Int.emod_eq_zero_of_dvd Int.dvd_bmod_sub_self

theorem holdsWrapped_updatedWeight (h w : S16) (r : Int) :
    HoldsWrapped (wrap16 (weightSum h w (delta r))) (exactWeight h w r) := by
  rw [weightSum_delta]; exact holdsWrapped_wrap16 _

theorem povfEvent_iff (acc : Int) : povfEvent acc = true ↔ acc < -2 ^ 31 ∨ 2 ^ 31 - 1 < acc := by
  simp [povfEvent]

theorem weightLeaves_iff (u : Int) : weightLeaves u = true ↔ u < -32768 ∨ 32767 < u := by
  simp [weightLeaves]

theorem wovfEvent_iff (h w : Taps) (r : Int) :
    wovfEvent h w (delta r) = true ↔ ∃ u ∈ [exactWeight h.t0 w.t0 r, exactWeight h.t1 w.t1 r,
      exactWeight h.t2 w.t2 r, exactWeight h.t3 w.t3 r], u < -32768 ∨ 32767 < u := by
  simp [wovfEvent, weightSum_delta, weightLeaves_iff, or_assoc]

/-- The sample SAMPLE returns for the contribution `r`, as the buffer holds it (rules R181, R183). -/
def sampleOf (h w : Taps) (r : Int) : S16 := wrap16 (recon (predict h w) r)

/-- The stages of the datapath on one channel's registers obey rule R180. -/
theorem sampleLaw_of_stages (h w : Taps) (r : Int) :
    SampleLaw h w r (shiftHistory h (sampleOf h w r)) (updateWeights h w (delta r)) (sampleOf h w r)
      (povfEvent (predSum h w)) (wovfEvent h w (delta r)) where
  sample := by rw [sampleOf, toInt_wrap16_recon, predict_eq_floor]
  history := rfl
  weight0 := holdsWrapped_updatedWeight _ _ _
  weight1 := holdsWrapped_updatedWeight _ _ _
  weight2 := holdsWrapped_updatedWeight _ _ _
  weight3 := holdsWrapped_updatedWeight _ _ _
  povf := povfEvent_iff _
  wovf := wovfEvent_iff _ _ _

end Stages

end Machine
end Sys2Proof
end

section
/-! The samples of a slice group, and SLC as a whole (rules R126, R150, R188). -/

namespace Sys2Proof
namespace Machine

/-- What samples of channel `CI` leave: its registers, the samples appended to its buffer, the flags with the events. -/
def State.withSamples (s : State) (h w : Taps) (xs : List S16) (po wo : Bool) : State :=
  { s with
    H := s.H.set s.CI h
    W := s.W.set s.CI w
    CHBUF := s.CHBUF.set s.CI (s.CHBUF[s.CI] ++ xs)
    POVF := s.POVF || po
    WOVF := s.WOVF || wo }

section WithSamples

variable (s : State) (h w : Taps) (xs : List S16) (po wo : Bool)

@[simp] theorem State.withSamples_SF : (s.withSamples h w xs po wo).SF = s.SF := rfl
@[simp] theorem State.withSamples_history : (s.withSamples h w xs po wo).history = h := by
  simp [State.history, State.withSamples]
@[simp] theorem State.withSamples_weights : (s.withSamples h w xs po wo).weights = w := by
  simp [State.weights, State.withSamples]

/-- No sample leaves the state as it was. -/
theorem State.withSamples_nil : s.withSamples s.history s.weights [] false false = s := by
  simp [State.withSamples, State.history, State.weights]

/-- Samples after samples: the later registers stand, the buffer grows in order, the events add up. -/
theorem State.withSamples_withSamples (h' w' : Taps) (ys : List S16) (po' wo' : Bool) :
    (s.withSamples h w xs po wo).withSamples h' w' ys po' wo' =
      s.withSamples h' w' (xs ++ ys) (po || po') (wo || wo') := by
  simp [State.withSamples, Bool.or_assoc]

end WithSamples

/-- A SAMPLE sub-step leaves one sample of the law (rules R169, R180). -/
theorem sampleStep_law (q : BitVec 3) (s : State) : ∃ h w x po wo,
    SampleLaw s.history s.weights (rha ((s.SF.toNat : ℚ) * dqTable q)) h w x po wo ∧
    sampleStep q s = s.withSamples h w [x] po wo := by
  rw [← resid_eq_rha]
  exact ⟨_, _, _, _, _, sampleLaw_of_stages s.history s.weights (resid s.SF q), sampleStep_eq q s⟩

/-- The codes of a slice one after another leave the samples of the law, in order (rule R188). -/
theorem foldl_sampleStep_law (qs : List (BitVec 3)) (s : State) : ∃ h w xs po wo, xs.length = qs.length ∧
    SliceLaw s.SF qs s.history s.weights xs h w po wo ∧
    qs.foldl (fun t q => sampleStep q t) s = s.withSamples h w xs po wo := by
  induction qs generalizing s with
  | nil => exact ⟨_, _, [], false, false, rfl, ⟨rfl, rfl, rfl, rfl, rfl⟩, s.withSamples_nil.symm⟩
  | cons q qs ih =>
    obtain ⟨h₁, w₁, x, po₁, wo₁, hsample, hstep⟩ := sampleStep_law q s
    obtain ⟨h, w, xs, po, wo, hlen, hslice, hfold⟩ := ih (s.withSamples h₁ w₁ [x] po₁ wo₁)
    rw [State.withSamples_SF, State.withSamples_history, State.withSamples_weights] at hslice
    refine ⟨h, w, x :: xs, po₁ || po, wo₁ || wo, congrArg (· + 1) hlen, ?_, ?_⟩
    · exact ⟨h₁, w₁, x, po₁, wo₁, xs, po, wo, hsample, hslice, rfl, rfl, rfl⟩
    · rw [List.foldl_cons, hstep, hfold, State.withSamples_withSamples, List.singleton_append]

/-- SLC completes where `POS` and the buffers have room (rules R150, R238). -/
theorem exec_slc_of_room (sfi : BitVec 4) {codes : List (BitVec 3)} {s : State} (hbytes : s.RoomForBytes 8)
    (hsamples : s.RoomForSamples (codes.take s.groupLen).length) :
    exec (.slc sfi codes) s = .next (endSlice (afterFields sfi codes s)) := by
  have hpos : s.posFits Config.SLC_LEN = true := (posFits_iff s 8).mpr hbytes
  have hcap := (samplesFit_iff s _).mpr hsamples
  obtain ⟨-, -, hexec⟩ | ⟨hfull, -⟩ := execSlc_cases sfi codes s
  · exact hexec
  · exact absurd hfull (by rw [hpos, hcap]; decide)

/-- `n(SI)` as rule R126 writes it out. -/
theorem groupLen_eq {s : State} {n : Nat}
    (htrunc : s.CFG.TAIL_MODE = .truncate → n = min 20 (s.FSAMPLES.toNat - 20 * s.SI))
    (hfull : s.CFG.TAIL_MODE = .full20 → n = 20) : s.groupLen = n := by
  unfold State.groupLen
  cases hmode : s.CFG.TAIL_MODE with
  | truncate => rw [htrunc hmode, groupSize_truncate]
  | full20 => rw [hfull hmode, groupSize_full20]

/-- Settles O20: with the scale factor latched, the codes leave the samples of `foldl_sampleStep_law`; the end of the
slice clears the temporaries (log entry 10). -/
theorem slcDecodesItsGroup : Obligations.SlcDecodesItsGroup := by
  intro sfi codes s n _ hcodes htrunc hfull hbytes hsamples
  obtain rfl : s.groupLen = n := groupLen_eq htrunc hfull
  have htake : (codes.take s.groupLen).length = s.groupLen := by
    rw [List.length_take, hcodes, Nat.min_eq_left (groupLen_le s)]
  rw [← htake] at hsamples
  obtain ⟨h, w, xs, po, wo, hlen, hslice, hfold⟩ :=
    foldl_sampleStep_law (codes.take s.groupLen) (latchScale sfi (s.consume Config.SLC_LEN))
  refine ⟨h, w, xs, po, wo, hlen.trans htake, hslice, ?_⟩
  calc exec (.slc sfi codes) s = .next (endSlice (afterFields sfi codes s)) := exec_slc_of_room sfi hbytes hsamples
    _ = .next (endSlice ((latchScale sfi (s.consume Config.SLC_LEN)).withSamples h w xs po wo)) := by
      rw [afterFields, hfold]

end Machine
end Sys2Proof
end

section
/-! LMS as a load of channel `CI` (rules R141, R238). -/

namespace Sys2Proof
namespace Machine

/-- LMS completes where `POS` has room for its bytes (rules R141, R238). -/
theorem exec_lms_of_room (history weights : Taps) {s : State} (hroom : s.RoomForBytes 16) :
    exec (.lms history weights) s = .next (advance ((s.consume Config.LMS_BYTES).setChannel history weights)) := by
  have hfits : s.posFits Config.LMS_BYTES = true := (posFits_iff s 16).mpr hroom
  obtain ⟨-, hexec⟩ | ⟨hfull, -⟩ := execLms_cases history weights s
  · exact hexec
  · simp [hfits] at hfull

/-- The load writes `POS` and channel `CI` of both vectors, and names nothing of what the registers held. -/
theorem setChannel_consume (history weights : Taps) (s : State) (n : Nat) :
    (s.consume n).setChannel history weights =
      { s with POS := s.POS + n, H := s.H.set s.CI history, W := s.W.set s.CI weights } := rfl

/-- Settles O18: with room the unit loads channel `CI` and the sequencer advances. The phase plays no part. -/
theorem lmsReplacesChannelState : Obligations.LmsReplacesChannelState := by
  intro history weights s _ hroom
  rw [exec_lms_of_room history weights hroom, setChannel_consume]

end Machine
end Sys2Proof
end

section
/-! The dequantizer's two tables against the source's real and rational laws (rules R165, R166, R169). -/

namespace Sys2Proof
namespace Machine

section PowerLaw

/-- Nearest to `m ^ 2.75`, decided in integers: the fourth power clears the root, the factor two the half (rule R166). -/
theorem floor_rpow_add_half_eq {m k : ℕ} (hlow : (2 * k - 1 : ℤ) ^ 4 ≤ 16 * m ^ 11)
    (hhigh : (16 * m ^ 11 : ℤ) < (2 * k + 1) ^ 4) : ⌊(m : ℝ) ^ (2.75 : ℝ) + 1 / 2⌋ = k := by
  have hnonneg : (0 : ℝ) ≤ m ^ (2.75 : ℝ) := by positivity
  have hfourth : (2 * (m : ℝ) ^ (2.75 : ℝ)) ^ 4 = 16 * m ^ 11 := by
    have hroot : ((m : ℝ) ^ (2.75 : ℝ)) ^ 4 = m ^ 11 := by
      rw [← Real.rpow_mul_natCast m.cast_nonneg, ← Real.rpow_natCast]; norm_num
    rw [mul_pow, hroot]; norm_num
  have hlower : (2 * k - 1 : ℝ) ≤ 2 * m ^ (2.75 : ℝ) :=
    le_of_pow_le_pow_left₀ four_ne_zero (by positivity) (by rw [hfourth]; exact_mod_cast hlow)
  have hupper : 2 * (m : ℝ) ^ (2.75 : ℝ) < 2 * k + 1 :=
    lt_of_pow_lt_pow_left₀ 4 (by positivity) (by rw [hfourth]; exact_mod_cast hhigh)
  rw [Int.floor_eq_iff, Int.cast_natCast]
  constructor <;> linarith

/-- The integer form of the law holds of all sixteen ROM entries. -/
theorem sfRom_pow_four_bounds (v : BitVec 4) :
    (2 * (sfRom v).toNat - 1 : ℤ) ^ 4 ≤ 16 * ((v.toNat + 1 : ℕ) : ℤ) ^ 11 ∧
      (16 * ((v.toNat + 1 : ℕ) : ℤ) ^ 11) < (2 * (sfRom v).toNat + 1) ^ 4 := by
  revert v; decide

/-- `SF_ROM` holds the rounded power law (rules R165, R166). -/
theorem sfRom_eq_floor_rpow (v : BitVec 4) :
    ((sfRom v).toNat : ℤ) = ⌊((v.toNat : ℝ) + 1) ^ (2.75 : ℝ) + 1 / 2⌋ := by
  obtain ⟨hlow, hhigh⟩ := sfRom_pow_four_bounds v
  rw [← floor_rpow_add_half_eq hlow hhigh, Nat.cast_succ]

end PowerLaw

section Rows

/-- The row of an index runs what the slice runs for that field (rule R104). -/
theorem exec_sfInstr_eq_runSfi (v : BitVec 4) (s : State) : exec (sfInstr v) s = runSfi v s := by
  obtain rfl | rfl | rfl | rfl | rfl | rfl | rfl | rfl | rfl | rfl | rfl | rfl | rfl | rfl | rfl | rfl := sfi_cases v <;>
    rfl

/-- The row of an index latches its ROM entry and leaves the rest (rule R165). -/
theorem exec_sfInstr (v : BitVec 4) (s : State) : exec (sfInstr v) s = .next { s with SF := sfRom v } := by
  rw [exec_sfInstr_eq_runSfi, runSfi_eq, latchScale]

/-- The sixteen rows in the order of their indices (rule R90). -/
def sfRows : List (Instr × ℕ) := (List.finRange 16).map fun k => (sfInstr (.ofFin k), k)

theorem mem_sfRows {p : Instr × ℕ} (h : p ∈ sfRows) : ∃ v : BitVec 4, p = (sfInstr v, v.toNat) := by
  obtain ⟨k, -, rfl⟩ := List.mem_map.mp h
  exact ⟨.ofFin k, rfl⟩

end Rows

/-- Settles O23: the row of index `k` latches entry `k` of the ROM, and the ROM holds the rounded power law. -/
theorem scaleFactorCodesFollowThePowerLaw : Obligations.ScaleFactorCodesFollowThePowerLaw := by
  intro p hp s
  have hrow : p ∈ sfRows := hp
  obtain ⟨v, rfl⟩ := mem_sfRows hrow
  exact ⟨sfRom v, exec_sfInstr v s, sfRom_eq_floor_rpow v⟩

/-- Settles O25 by `resid_eq_rha`: the table is a quarter of the ROM, and rounding away from zero commutes with the sign. -/
theorem residualContributionIsRoundedProduct : Obligations.ResidualContributionIsRoundedProduct :=
  resid_eq_rha

end Machine
end Sys2Proof
end

section
/-! The residual codes as operations of their own: one SAMPLE on channel `CI` (rules R104, R167, R180). -/

namespace Sys2Proof
namespace Machine

/-- The row of a residual code runs its SAMPLE sub-step (rule R104). -/
theorem exec_qInstr (q : BitVec 3) (s : State) : exec (qInstr q) s = .next (sampleStep q s) :=
  exec_field (f := .code q) rfl s

/-- The row of a residual code leaves one sample of the law on channel `CI`, and nothing else (rules R169, R180). -/
theorem exec_qInstr_law (q : BitVec 3) (s : State) : ∃ h w x po wo,
    SampleLaw s.history s.weights (rha ((s.SF.toNat : ℚ) * dqTable q)) h w x po wo ∧
    exec (qInstr q) s = .next (s.withSamples h w [x] po wo) := by
  obtain ⟨h, w, x, po, wo, hlaw, hstep⟩ := sampleStep_law q s
  refine ⟨h, w, x, po, wo, hlaw, ?_⟩
  rw [exec_qInstr, hstep]

/-- The eight rows in the order of their codes, each with its entry of the residual table (rules R90, R167). -/
def qRows : List (Instr × ℚ) := (List.finRange 8).map fun k => (qInstr (.ofFin k), dqTable (.ofFin k))

theorem mem_qRows {p : Instr × ℚ} (h : p ∈ qRows) : ∃ q : BitVec 3, p = (qInstr q, dqTable q) := by
  obtain ⟨k, -, rfl⟩ := List.mem_map.mp h
  exact ⟨.ofFin k, rfl⟩

/-- Settles O24: the statement's list is `qRows`, and the row of a code leaves one sample of the law with the table's
entry for that code (log entries 10 and 11). -/
theorem residualCodesRunSample : Obligations.ResidualCodesRunSample := by
  intro p hp s
  have hrow : p ∈ qRows := hp
  obtain ⟨q, rfl⟩ := mem_qRows hrow
  exact exec_qInstr_law q s

end Machine
end Sys2Proof
end

section
/-! ASM with equally long buffers: the check of rule R201 passes, and the interleave is indexed by rule R202. -/

namespace Sys2Proof
namespace Machine

section Interleave

/-- Rows of one width in a line: the word at column `j` of row `i`. -/
theorem getElem?_flatMap_of_length_eq {α β : Type} {f : α → List β} {w j : Nat} (hj : j < w) {l : List α}
    (hw : ∀ a ∈ l, (f a).length = w) (i : Nat) : (l.flatMap f)[i * w + j]? = l[i]?.bind fun a => (f a)[j]? := by
  induction l generalizing i with
  | nil => simp
  | cons a l ih =>
    obtain ⟨ha, hl⟩ := List.forall_mem_cons.mp hw
    rw [List.flatMap_cons]
    cases i with
    | zero => simp [List.getElem?_append_left, ha, hj]
    | succ i =>
      have hpast : (i + 1) * w + j = (f a).length + (i * w + j) := by rw [ha]; ring
      rw [hpast, List.getElem?_append_right (Nat.le_add_right _ _), Nat.add_sub_cancel_left, ih hl,
        List.getElem?_cons_succ]

/-- Below the length of every buffer no channel drops out of a row of the interleave. -/
theorem filterMap_getElem?_eq_map {bufs : List (List S16)} {k : Nat} (h : ∀ b ∈ bufs, k < b.length) :
    (bufs.filterMap fun b => b[k]?) = bufs.map fun b => b.getD k 0 :=
  List.filterMap_eq_map_iff_forall_eq_some.mpr fun b hb => by simp [h b hb]

/-- The interleave of equally long buffers holds sample `k` of buffer `c` at `k * C + c` (rule R202). -/
theorem interleave_getElem? {bufs : List (List S16)} {n k c : Nat} {b : List S16} (h : ∀ b ∈ bufs, b.length = n)
    (hk : k < n) (hb : bufs[c]? = some b) : (interleave bufs n)[k * bufs.length + c]? = b[k]? := by
  have hrow : ∀ i < n, (bufs.filterMap fun b => b[i]?) = bufs.map fun b => b.getD i 0 := fun i hi =>
    filterMap_getElem?_eq_map fun b hb => (h b hb).symm ▸ hi
  have hwidth : ∀ i ∈ List.range n, (bufs.filterMap fun b => b[i]?).length = bufs.length := fun i hi => by
    rw [hrow i (List.mem_range.mp hi), List.length_map]
  obtain ⟨hc, -⟩ := List.getElem?_eq_some_iff.mp hb
  have hkb : k < b.length := (h b (List.mem_of_getElem? hb)).symm ▸ hk
  rw [interleave, getElem?_flatMap_of_length_eq hc hwidth, List.getElem?_range hk, Option.bind_some, hrow k hk,
    List.getElem?_map, hb, Option.map_some, List.getD_eq_getElem _ _ hkb, List.getElem?_eq_getElem hkb]

end Interleave

section EqualBuffers

/-- The common length of buffers of length `n`; without buffers it is 0, whatever `n` is (rule R205). -/
theorem commonLength_eq {bufs : List (List S16)} {n : Nat} (hne : bufs ≠ []) (h : ∀ b ∈ bufs, b.length = n) :
    commonLength bufs = n := by
  cases bufs with
  | nil => exact absurd rfl hne
  | cons b bufs => exact h b List.mem_cons_self

theorem lengthsAgree_of_length_eq {bufs : List (List S16)} {n : Nat} (h : ∀ b ∈ bufs, b.length = n) :
    lengthsAgree bufs = true :=
  (lengthsAgree_iff bufs).mpr fun b hb => (h b hb).trans (commonLength_eq (List.ne_nil_of_mem hb) h).symm

/-- `N * C` counts the words, also where no buffer says what `N` is. -/
theorem commonLength_mul_length {bufs : List (List S16)} {n : Nat} (h : ∀ b ∈ bufs, b.length = n) :
    commonLength bufs * bufs.length = n * bufs.length := by
  by_cases hne : bufs = []
  · simp [hne]
  · rw [commonLength_eq hne h]

variable {s : State}

theorem buffers_getElem? {c : Fin NCH_MAX} (hc : c.val < s.CHANNELS.toNat) : s.buffers[c.val]? = some s.CHBUF[c] := by
  simp [State.buffers, hc]

/-- The buffers ASM looks at are those of the channels in use (rule R200). -/
theorem mem_buffers {b : List S16} : b ∈ s.buffers ↔ ∃ c : Fin NCH_MAX, c.val < s.CHANNELS.toNat ∧ s.CHBUF[c] = b := by
  constructor
  · intro hb
    obtain ⟨i, hi⟩ := List.getElem?_of_mem hb
    obtain ⟨hlt, -⟩ := List.getElem?_eq_some_iff.mp hi
    have hch : i < s.CHANNELS.toNat := buffers_length s ▸ hlt
    have hmax : i < NCH_MAX := hch.trans_le (Nat.le_of_lt_succ s.CHANNELS.isLt)
    refine ⟨⟨i, hmax⟩, hch, Option.some.inj ?_⟩
    rw [← hi, ← buffers_getElem? (c := ⟨i, hmax⟩) hch]
  · rintro ⟨c, hc, rfl⟩
    exact List.mem_of_getElem? (buffers_getElem? hc)

theorem forall_mem_buffers_length_eq {n : Nat} (h : ∀ c : Fin NCH_MAX, c.val < s.CHANNELS.toNat → s.bufLen c = n) :
    ∀ b ∈ s.buffers, b.length = n := by
  intro b hb
  obtain ⟨c, hc, rfl⟩ := mem_buffers.mp hb
  exact h c hc

/-- ASM where its check passes, in its own phase (rules R200, R204). -/
theorem exec_asm_of_lengthsAgree (hph : s.PH = .asm) (h : lengthsAgree s.buffers = true) :
    exec .asm s = .next { s with
      PCM := interleave s.buffers (commonLength s.buffers)
      OUTLEN := commonLength s.buffers * s.CHANNELS.toNat
      PH := .done
      STATUS := .done } := by
  obtain ⟨-, hexec⟩ | ⟨hdisagree, -⟩ := execAsm_cases s
  · exact hexec.trans (by simp only [advance_asm, hph])
  · simp [h] at hdisagree

end EqualBuffers

/-- Settles O29: the check passes, the published words are counted by `interleave_length` and indexed by
`interleave_getElem?`. Without channels `n` is any number, and both sides of the count are 0. -/
theorem asmInterleavesTheBuffers : Obligations.AsmInterleavesTheBuffers := by
  intro s n hph hlen
  have hall := forall_mem_buffers_length_eq hlen
  have hagree := lengthsAgree_of_length_eq hall
  have hcount : (interleave s.buffers (commonLength s.buffers)).length = commonLength s.buffers * s.CHANNELS.toNat := by
    rw [interleave_length _ _ ((lengthsAgree_iff _).mp hagree), buffers_length]
  refine ⟨interleave s.buffers (commonLength s.buffers), ?_, ?_, fun k c hk hc => ?_⟩
  · rw [hcount, exec_asm_of_lengthsAgree hph hagree]
  · rw [hcount, ← buffers_length, commonLength_mul_length hall]
  · have hbuf := buffers_getElem? hc
    rw [commonLength_eq (List.ne_nil_of_mem (List.mem_of_getElem? hbuf)) hall, ← buffers_length]
    exact interleave_getElem? hall hk hbuf

end Machine
end Sys2Proof
end


section
/-! RESET and START (rules R210, R215). -/

namespace Sys2Proof
namespace Machine

/-- The step in which the host asserts `RESET`. -/
theorem step_reset {s : State} {rest : List HostEvent} (h : s.HOST = .reset :: rest) :
    step s = .next (resetBlock { s with HOST := rest }) :=
  step_cons h

/-- Settles O9: the registers rule R42 specifies are those of `State.reset` after `resetBlock`, whatever state it starts
from. -/
theorem resetAbandonsAnyDecode : Obligations.ResetAbandonsAnyDecode :=
  fun _ _ h => ⟨_, step_reset h, resetLeavesSpecifiedValues⟩

/-- START where it is not refused (rules R210, R211). -/
theorem exec_start_of_notBusy {s : State} (h : s.STATUS ≠ .busy) : exec .start s = .next (startDecode s) := by
  obtain ⟨hbusy, -⟩ | ⟨-, hstart⟩ := execStart_cases s
  · exact absurd hbusy h
  · exact hstart

/-- Settles O10: the statement's state is `startDecode s`, written out (log entry 3). -/
theorem startEstablishesDecode : Obligations.StartEstablishesDecode :=
  fun _ h => exec_start_of_notBusy h

end Machine
end Sys2Proof
end

section
/-! The host's reads of the numbered registers (rules R26, R28, R37, R212, R221). -/

namespace Sys2Proof
namespace Machine

section RegisterValues

/-- The numbers of rule R26. -/
theorem eq_statusCode_toNat_iff (st : Status) (v : Nat) : v = st.code.toNat ↔
    (st = .idle ∧ v = 0) ∨ (st = .busy ∧ v = 1) ∨ (st = .done ∧ v = 2) ∨ (st = .failed ∧ v = 3) := by
  cases st <;> simp [Status.code]

/-- The numbers of rule R221. -/
theorem eq_errCode_toNat_iff (x : ErrCode) (v : Nat) : v = x.code.toNat ↔
    (x = .none ∧ v = 0) ∨ (x = .malformedContainer ∧ v = 1) ∨ (x = .truncatedStream ∧ v = 2) ∨
      (x = .channelCountMismatch ∧ v = 3) ∨ (x = .channelLengthMismatch ∧ v = 4) ∨ (x = .capacityExceeded ∧ v = 5) := by
  cases x <;> simp [ErrCode.code]

/-- `POVF` is bit 0 and `WOVF` bit 1 of the number `FLAGS` is read as (rule R28). -/
theorem flagsWord_toNat (s : State) : s.flagsWord.toNat = s.POVF.toNat + 2 * s.WOVF.toNat := by
  unfold State.flagsWord
  cases s.POVF <;> cases s.WOVF <;> rfl

/-- The "valid when" column of rule R37. -/
def validWhen (r : HostReg) (st : Status) : Bool :=
  match r with
  | .CMD => false
  | .STATUS | .ERR => true
  | .FLAGS => st == .done || st == .failed
  | .CHANNELS | .RATE | .TOTAL => st == .done
  | .OUTLEN => st != .busy

/-- The number a register is read as in its window; the write-only `CMD` has none, and 0 stands for it. -/
def readValue (r : HostReg) (s : State) : Nat :=
  match r with
  | .CMD => 0
  | .STATUS => s.STATUS.code.toNat
  | .ERR => s.ERR.code.toNat
  | .FLAGS => s.flagsWord.toNat
  | .CHANNELS => s.CHANNELS.toNat
  | .RATE => s.RATE.toNat
  | .OUTLEN => s.OUTLEN
  | .TOTAL => s.TOTAL.toNat

@[simp] theorem readValue_withHOST (r : HostReg) (s : State) (l : List HostEvent) :
    readValue r { s with HOST := l } = readValue r s := by cases r <;> rfl

end RegisterValues

section RegisterReads

variable {r : HostReg} {s : State}

/-- Every register but `CMD` is read through its window (rules R37, R212). `STATUS` and `ERR` are always in theirs, so
that they have no unspecified value. -/
theorem readReg_eq_readWindow (hr : r ≠ .CMD) :
    ∃ unspecified, readReg r s = .next (readWindow r (validWhen r s.STATUS) (readValue r s) unspecified s) := by
  cases r with
  | CMD => exact absurd rfl hr
  | STATUS | ERR => exact ⟨0, rfl⟩
  | FLAGS | CHANNELS | RATE | OUTLEN | TOTAL => exact ⟨_, rfl⟩

/-- A read inside the window. -/
theorem readReg_of_valid (hv : validWhen r s.STATUS = true) :
    readReg r s = .next (replyKnown s (.reg r (readValue r s))) := by
  have hr : r ≠ .CMD := by rintro rfl; cases hv
  obtain ⟨unspecified, h⟩ := readReg_eq_readWindow (s := s) hr
  rw [h, readWindow, if_pos hv]

/-- A read through a window, open or not, adds a reply, and counts a draw at most. -/
theorem readWindow_frame (r : HostReg) (valid : Bool) (value unspecified : Nat) (s : State) : ∃ v draws,
    readWindow r valid value unspecified s = { s with REPLIES := .reg r v :: s.REPLIES, DRAWS := draws } := by
  cases valid with
  | true => exact ⟨value, s.DRAWS, rfl⟩
  | false => exact ⟨unspecified, s.DRAWS + 1, rfl⟩

variable {rest : List HostEvent}

theorem step_readReg (hs : s.HOST = .readReg r :: rest) : step s = readReg r { s with HOST := rest } :=
  step_cons hs

theorem step_readReg_of_valid (hs : s.HOST = .readReg r :: rest) (hv : validWhen r s.STATUS = true) :
    step s = .next { s with HOST := rest, REPLIES := .reg r (readValue r s) :: s.REPLIES } := by
  calc step s = readReg r { s with HOST := rest } := step_readReg hs
    _ = .next (replyKnown { s with HOST := rest } (.reg r (readValue r { s with HOST := rest }))) := readReg_of_valid hv
    _ = .next { s with HOST := rest, REPLIES := .reg r (readValue r s) :: s.REPLIES } := by
        rw [readValue_withHOST, replyKnown]

theorem step_readReg_frame (hs : s.HOST = .readReg r :: rest) (hr : r ≠ .CMD) : ∃ v draws,
    step s = .next { s with HOST := rest, REPLIES := .reg r v :: s.REPLIES, DRAWS := draws } := by
  obtain ⟨unspecified, hread⟩ := readReg_eq_readWindow (s := { s with HOST := rest }) hr
  obtain ⟨v, draws, hframe⟩ := readWindow_frame r _ _ unspecified { s with HOST := rest }
  exact ⟨v, draws, by rw [step_readReg hs, hread, hframe]⟩

end RegisterReads

/-- Settles O40: each row of the first clause is an open window of `validWhen` with the value `readValue`, which
`step_readReg_of_valid` answers; the second clause is `step_readReg_frame`. -/
theorem registerReadsReturnTheRegister : Obligations.RegisterReadsReturnTheRegister := by
  refine ⟨fun s rest r v hs hrow => ?_, fun s rest r hs hr => step_readReg_frame hs hr⟩
  have hread : validWhen r s.STATUS = true ∧ v = readValue r s := by
    obtain ⟨rfl, hcode⟩ | ⟨rfl, hcode⟩ | ⟨rfl, hended, rfl⟩ | ⟨rfl, hdone, rfl⟩ | ⟨rfl, hdone, rfl⟩ |
      ⟨rfl, hnotBusy, rfl⟩ | ⟨rfl, hdone, rfl⟩ := hrow
    · exact ⟨rfl, (eq_statusCode_toNat_iff _ _).mpr hcode⟩
    · exact ⟨rfl, (eq_errCode_toNat_iff _ _).mpr hcode⟩
    · exact ⟨by simpa [validWhen] using hended, (flagsWord_toNat s).symm⟩
    · exact ⟨by simpa [validWhen] using hdone, rfl⟩
    · exact ⟨by simpa [validWhen] using hdone, rfl⟩
    · exact ⟨by simpa [validWhen] using hnotBusy, rfl⟩
    · exact ⟨by simpa [validWhen] using hdone, rfl⟩
  obtain ⟨hvalid, rfl⟩ := hread
  exact step_readReg_of_valid hs hvalid

end Machine
end Sys2Proof
end

section
/-! A read of a PCM word (rule R213). -/

namespace Sys2Proof
namespace Machine

/-- A read of a readable word answers the word. -/
theorem readPcm_of_readable {k : Nat} {s : State} {v : S16} (h : pcmReadable k s = some v) :
    readPcm k s = replyKnown s (.pcm k v) := by
  simp only [readPcm, h]

/-- The step of a read of a readable word: the script advances and the answer is recorded. -/
theorem step_readPcm {s : State} {rest : List HostEvent} {k : Nat} {v : S16} (hs : s.HOST = .readPcm k :: rest)
    (hr : pcmReadable k s = some v) : step s = .next { s with HOST := rest, REPLIES := .pcm k v :: s.REPLIES } := by
  calc step s = .next (readPcm k { s with HOST := rest }) := step_cons hs
    _ = .next (replyKnown { s with HOST := rest } (.pcm k v)) := congrArg _ (readPcm_of_readable hr)

/-- Settles O41: inside the window of rule R213 the word is readable. -/
theorem pcmReadsReturnTheWord : Obligations.PcmReadsReturnTheWord :=
  fun _ _ _ _ hs hdone hk hv => step_readPcm hs (pcmReadable_eq_some.mpr ⟨hdone, hk, hv⟩)

end Machine
end Sys2Proof
end

section
/-! A unit the stream does not hold, and the two causes of `MalformedContainer` (rules R61, R222, R223). -/

namespace Sys2Proof
namespace Machine

section ShortRead

variable {s : State} {n : Nat}

/-- With fewer bytes left than the unit needs, its bytes are not all there (rule R61). -/
theorem unitBytes_eq_none_of_bytesLeft (hwf : s.IN.wf = true) (hu : unitLength s.PH = some n) (hleft : s.bytesLeft < n) :
    unitBytes s = none := by
  have hshort : ¬ s.POS + n ≤ s.IN.length := by unfold State.bytesLeft at hleft; omega
  have hrange := mt (Memory.readRange_isSome hwf s.POS n (by omega)).mp hshort
  rw [unitBytes, hu]
  exact Option.not_isSome_iff_eq_none.mp hrange

/-- A unit that is not there is not fetched. -/
theorem fetch_eq_none_of_unitBytes (hp : s.PEND = []) (hu : unitLength s.PH = some n) (hbytes : unitBytes s = none) :
    fetch s = none := by
  have hne : s.PH ≠ .asm := fun ha => by simp [ha, unitLength] at hu
  simp only [fetch, hp, if_neg hne, hbytes, Option.map_none]

/-- After the end of the stream, a unit that is not all there fails by its phase's code (rules R61, R222, R223). -/
theorem sequencerStep_shortRead (hp : s.PEND = []) (hwf : s.IN.wf = true) (heos : s.EOS = true)
    (hu : unitLength s.PH = some n) (hleft : s.bytesLeft < n) :
    sequencerStep s = .next (raise (shortReadError s.PH) s) := by
  have hbytes := unitBytes_eq_none_of_bytesLeft hwf hu hleft
  have hshort : shortRead s = true := by simp [shortRead, hu, hbytes, heos]
  simp only [sequencerStep, fetch_eq_none_of_unitBytes hp hu hbytes, noFetch, hshort, if_true]

/-- The same as a step of the machine. -/
theorem step_shortRead {rest : List HostEvent} (hturn : SequencerTurn s rest) (hp : s.PEND = []) (hwf : s.IN.wf = true)
    (heos : s.EOS = true) (hu : unitLength s.PH = some n) (hleft : s.bytesLeft < n) :
    ∃ t, step s = .next t ∧ FailsWith (shortReadError s.PH) { s with HOST := rest } t :=
  ⟨_, (step_of_sequencerTurn hturn).trans (sequencerStep_shortRead hp hwf heos hu hleft), raise_fails _ _⟩

end ShortRead

/-- A failure after the unit's bytes are consumed is a failure of the state before: only `POS` differs (rule R228). -/
theorem raise_consume_fails (x : ErrCode) (s : State) (n : Nat) : FailsWith x s (raise x (s.consume n)) :=
  { raise_fails x (s.consume n) with }

section WrongTag

/-- A container header's tag is its first four bytes (rules R63, R91). -/
theorem take_four_eq_byteAt {bs : List Byte} (h : 4 ≤ bs.length) :
    bs.take 4 = [byteAt bs 0, byteAt bs 1, byteAt bs 2, byteAt bs 3] := by
  match bs, h with
  | _ :: _ :: _ :: _ :: _, _ => simp [byteAt, fieldBE]

/-- CHDR with a tag other than `MAGIC` (rules R121, R222). -/
theorem exec_chdr_of_otherTag {magic : Tag} (total : BitVec 32) {s : State} (hroom : s.RoomForBytes 8)
    (htag : magic ≠ s.CFG.MAGIC) :
    exec (.chdr magic total) s = .next (raise .malformedContainer (s.consume Config.CHDR_LEN)) := by
  have hfits : s.posFits Config.CHDR_LEN = true := (posFits_iff s 8).mpr hroom
  obtain ⟨-, heq, -⟩ | ⟨-, -, hexec⟩ | ⟨hfull, -⟩ := execChdr_cases magic total s
  · exact absurd heq htag
  · exact hexec
  · simp [hfits] at hfull

/-- The same from the header's bytes. -/
theorem exec_readChdr_of_otherTag {bs : List Byte} {s : State} (hlen : bs.length = 8) (hroom : s.RoomForBytes 8)
    (htag : bs.take 4 ≠ [s.CFG.MAGIC.b0, s.CFG.MAGIC.b1, s.CFG.MAGIC.b2, s.CFG.MAGIC.b3]) :
    exec (readChdr bs) s = .next (raise .malformedContainer (s.consume Config.CHDR_LEN)) := by
  refine exec_chdr_of_otherTag _ hroom fun hmagic => htag ?_
  rw [take_four_eq_byteAt (by omega), ← hmagic]

theorem decode_chdr {bs : List Byte} (h : bs.length = Config.CHDR_LEN) :
    decode (.stream .chdr bs) = .ok (readChdr bs) := by
  simp [decode, decodeStream, unitLength, h]

end WrongTag

/-- Settles O14: a header cut short is CHDR's short read; a header with another tag decodes, and its execution fails
after its bytes are consumed. -/
theorem malformedContainerCauses : Obligations.MalformedContainerCauses := by
  intro s rest hturn hp hph hwf
  have hunit : unitLength s.PH = some 8 := by rw [hph]; rfl
  refine ⟨fun heos hleft => ?_, fun bs hlen hbytes hroom htag => ?_⟩
  · have hcode : shortReadError s.PH = .malformedContainer := by rw [hph]; rfl
    exact hcode ▸ step_shortRead hturn hp hwf heos hunit hleft
  · have hdecode : decode (.stream s.PH bs) = .ok (readChdr bs) := by rw [hph]; exact decode_chdr hlen
    refine ⟨_, ?_, raise_consume_fails .malformedContainer { s with HOST := rest } Config.CHDR_LEN⟩
    calc step s = sequencerStep { s with HOST := rest } := step_of_sequencerTurn hturn
      _ = exec (readChdr bs) { s with HOST := rest } := sequencerStep_unit hp (hlen ▸ hunit) hbytes hdecode
      _ = _ := exec_readChdr_of_otherTag hlen hroom htag

/-- Settles O33: a unit after CHDR that is not all there is a short read, and every phase but CHDR reports it as a
truncation. -/
theorem truncatedStreamCauses : Obligations.TruncatedStreamCauses := by
  intro s rest n hturn hp hph hwf heos hunit hleft
  have hcode : shortReadError s.PH = .truncatedStream := by
    obtain hph | hph | hph := hph <;> rw [hph] <;> rfl
  exact hcode ▸ step_shortRead hturn hp hwf heos hunit hleft

end Machine
end Sys2Proof
end

section
/-! FHDR with a channel count that differs from the first frame's (rules R124, R224). -/

namespace Sys2Proof
namespace Machine

section ChannelCount

variable {channels : BitVec 8} {rate : BitVec 24} {samples size : BitVec 16} {s : State}

/-- A later frame with another channel count fails with its header consumed (rule R125). -/
theorem exec_fhdr_of_mismatch (hroom : s.RoomForBytes 8) (hframe : s.FI ≠ 0) (hcount : channels ≠ s.CHANNELS) :
    exec (.fhdr channels rate samples size) s = .next (raise .channelCountMismatch (s.consume Config.FHDR_LEN)) := by
  have hfits : s.posFits Config.FHDR_LEN = true := (posFits_iff s 8).mpr hroom
  obtain ⟨-, hagree, -⟩ | ⟨-, -, hexec⟩ | ⟨hfull, -⟩ := execFhdr_cases channels rate samples size s
  · exact absurd hagree (by simp [hframe, hcount])
  · exact hexec
  · simp [hfits] at hfull

/-- FHDR latches nothing of `ERR`. -/
@[simp] theorem fhdrLatched_ERR : (fhdrLatched channels rate samples size s).ERR = s.ERR := rfl

/-- Frame 0 sets the channel count: it is latched, or `POS` has no room for the header (rules R124, R238). -/
theorem exec_fhdr_of_firstFrame (hframe : s.FI = 0) :
    exec (.fhdr channels rate samples size) s = .next (advance (fhdrLatched channels rate samples size s)) ∨
    exec (.fhdr channels rate samples size) s = .next (raise .capacityExceeded s) := by
  obtain ⟨-, -, hexec⟩ | ⟨-, hdisagree, -⟩ | ⟨-, hexec⟩ := execFhdr_cases channels rate samples size s
  · exact .inl hexec
  · exact absurd (.inl hframe) hdisagree
  · exact .inr hexec

end ChannelCount

/-- Settles O16: failure entry keeps `POS` after this failure alone, so the consumed header shows; in frame 0 neither
outcome leaves the code. -/
theorem channelCountMismatchCause : Obligations.ChannelCountMismatchCause := by
  refine ⟨fun channels rate samples size s hroom hframe hcount => ?_, fun channels rate samples size s t hframe herr h => ?_⟩
  · exact ⟨_, exec_fhdr_of_mismatch hroom hframe.ne' hcount, raise_consume_fails _ _ _, rfl⟩
  · obtain hexec | hexec := exec_fhdr_of_firstFrame hframe <;> cases hexec.symm.trans h
    · simp [herr]
    · simp

end Machine
end Sys2Proof
end

section
/-! Failure entry is the one way into FAILED (rules R220, R228, R229). -/

namespace Sys2Proof
namespace Machine

/-- From `s` to `t` the status stays, or it is not FAILED, or `t` is what failure entry by some failure leaves of `s`. -/
def FailsOnlyByRaise (s t : State) : Prop :=
  t.STATUS = s.STATUS ∨ t.STATUS ≠ .failed ∨ ∃ x, x ≠ .none ∧ FailsWith x s t

section Ways

variable {s t : State}

theorem FailsOnlyByRaise.of_keeps (h : t.STATUS = s.STATUS) : FailsOnlyByRaise s t := .inl h

theorem FailsOnlyByRaise.of_notFailed (h : t.STATUS ≠ .failed) : FailsOnlyByRaise s t := .inr (.inl h)

theorem FailsOnlyByRaise.of_failsWith {x : ErrCode} (hx : x ≠ .none) (h : FailsWith x s t) : FailsOnlyByRaise s t :=
  .inr (.inr ⟨x, hx, h⟩)

theorem FailsOnlyByRaise.of_raise {x : ErrCode} (hx : x ≠ .none) : FailsOnlyByRaise s (raise x s) :=
  .of_failsWith hx (raise_fails x s)

end Ways

section SampleStatus

@[simp] theorem fieldEffect_STATUS (f : SubField) (s : State) : (fieldEffect f s).STATUS = s.STATUS := by
  cases f <;> rfl

@[simp] theorem afterField_STATUS (s : State) : (afterField s).STATUS = s.STATUS := by
  unfold afterField
  split
  · exact endSlice_STATUS s
  · rfl

@[simp] theorem afterFields_STATUS (sfi : BitVec 4) (codes : List (BitVec 3)) (s : State) :
    (afterFields sfi codes s).STATUS = s.STATUS :=
  foldl_sampleStep (fun t => t.STATUS = s.STATUS) (fun _ _ h => h) _ _ rfl

end SampleStatus

section SequencerSide

variable {s t : State}

theorem execChdr_failsOnlyByRaise {magic : Tag} {total : BitVec 32} (h : execChdr magic total s = .next t) :
    FailsOnlyByRaise s t := by
  obtain ⟨-, -, hexec⟩ | ⟨-, -, hexec⟩ | ⟨-, hexec⟩ := execChdr_cases magic total s <;> cases hexec.symm.trans h
  · exact .of_keeps (by simp [chdrLatched])
  · exact .of_failsWith (by decide) (raise_consume_fails _ _ _)
  · exact .of_raise (by decide)

theorem execFhdr_failsOnlyByRaise {channels : BitVec 8} {rate : BitVec 24} {samples size : BitVec 16}
    (h : execFhdr channels rate samples size s = .next t) : FailsOnlyByRaise s t := by
  obtain ⟨-, -, hexec⟩ | ⟨-, -, hexec⟩ | ⟨-, hexec⟩ := execFhdr_cases channels rate samples size s <;>
    cases hexec.symm.trans h
  · exact .of_keeps (by simp [fhdrLatched])
  · exact .of_failsWith (by decide) (raise_consume_fails _ _ _)
  · exact .of_raise (by decide)

theorem execLms_failsOnlyByRaise {history weights : Taps} (h : execLms history weights s = .next t) :
    FailsOnlyByRaise s t := by
  obtain ⟨-, hexec⟩ | ⟨-, hexec⟩ := execLms_cases history weights s <;> cases hexec.symm.trans h
  · exact .of_keeps (by simp)
  · exact .of_raise (by decide)

theorem execSlc_failsOnlyByRaise {sfi : BitVec 4} {codes : List (BitVec 3)} (h : execSlc sfi codes s = .next t) :
    FailsOnlyByRaise s t := by
  obtain ⟨-, -, hexec⟩ | ⟨-, hexec⟩ := execSlc_cases sfi codes s <;> cases hexec.symm.trans h
  · exact .of_keeps (by simp)
  · exact .of_raise (by decide)

theorem execAsm_failsOnlyByRaise (h : execAsm s = .next t) : FailsOnlyByRaise s t := by
  obtain ⟨-, hexec⟩ | ⟨-, hexec⟩ := execAsm_cases s <;> cases hexec.symm.trans h
  · exact .of_notFailed (by simp)
  · exact .of_raise (by decide)

theorem shortReadError_ne_none (ph : Phase) : shortReadError ph ≠ .none := by
  unfold shortReadError
  split <;> decide

/-- The sequencer's step, by what it executes. -/
theorem sequencerStep_failsOnlyByRaise (h : sequencerStep s = .next t) : FailsOnlyByRaise s t := by
  obtain ⟨f, fs, -, hstep⟩ | ⟨-, -, hstep⟩ | ⟨-, -, bs, -, hstep⟩ | ⟨-, -, bs, -, hstep⟩ | ⟨-, -, bs, -, hstep⟩ |
    ⟨-, -, bs, -, hstep⟩ | ⟨-, -, hstep⟩ | ⟨-, -, -, -, hstep⟩ := sequencerStep_cases s
  · cases hstep.symm.trans h
    exact .of_keeps (by simp)
  · exact execAsm_failsOnlyByRaise (hstep.symm.trans h)
  · exact execChdr_failsOnlyByRaise (hstep.symm.trans h)
  · exact execFhdr_failsOnlyByRaise (hstep.symm.trans h)
  · exact execLms_failsOnlyByRaise (hstep.symm.trans h)
  · exact execSlc_failsOnlyByRaise (hstep.symm.trans h)
  · cases hstep.symm.trans h
    exact .of_raise (shortReadError_ne_none s.PH)
  · cases hstep.symm.trans h
    exact .of_keeps rfl

end SequencerSide

section HostSide

variable {s t : State}

/-- START is no failure, and a reserved command changes nothing (rules R105, R210, R211). -/
theorem commandStep_failsOnlyByRaise {b : Byte} (h : commandStep b s = .next t) : FailsOnlyByRaise s t := by
  rw [commandStep_eq] at h
  split at h
  · obtain ⟨-, hstart⟩ | ⟨-, hstart⟩ := execStart_cases s <;> cases hstart.symm.trans h
    · exact .of_keeps rfl
    · exact .of_notFailed (by simp)
  · cases h
    exact .of_keeps rfl

theorem offerBytes_eq_next {bs : List Byte} (h : offerBytes bs s = .next t) : t = { s with IN := s.IN.offer bs } := by
  unfold offerBytes at h
  split at h
  · cases h
  · cases h; rfl

theorem readReg_STATUS {r : HostReg} (h : readReg r s = .next t) : t.STATUS = s.STATUS := by
  by_cases hr : r = .CMD
  · subst hr; cases h
  · obtain ⟨unspecified, hread⟩ := readReg_eq_readWindow (s := s) hr
    obtain ⟨v, draws, hframe⟩ := readWindow_frame r (validWhen r s.STATUS) (readValue r s) unspecified s
    rw [hread, hframe] at h
    cases h; rfl

@[simp] theorem readPcm_STATUS (k : Nat) (s : State) : (readPcm k s).STATUS = s.STATUS := by
  unfold readPcm
  split <;> rfl

@[simp] theorem readPcmByte_STATUS (k : Nat) (upper : Bool) (s : State) : (readPcmByte k upper s).STATUS = s.STATUS := by
  unfold readPcmByte
  split <;> rfl

/-- No move of the host is a failure; its doing nothing is the sequencer's step. -/
theorem hostStep_failsOnlyByRaise {e : HostEvent} (h : hostStep e s = .next t) : FailsOnlyByRaise s t := by
  cases e with
  | idle => exact sequencerStep_failsOnlyByRaise h
  | writeCmd b => exact commandStep_failsOnlyByRaise h
  | offer bs => exact .of_keeps (by rw [offerBytes_eq_next h])
  | endStream => cases h; exact .of_keeps (endStream_STATUS s)
  | reset => cases h; exact .of_notFailed (by simp [State.reset])
  | readReg r => exact .of_keeps (readReg_STATUS h)
  | readPcm k => cases h; exact .of_keeps (readPcm_STATUS k s)
  | readPcmByte k upper => cases h; exact .of_keeps (readPcmByte_STATUS k upper s)

/-- A step is a move of the script; at the script's end the host does nothing (log entry 4). -/
theorem step_eq_hostStep (s : State) : ∃ e rest, step s = hostStep e { s with HOST := rest } := by
  cases hs : s.HOST with
  | nil => exact ⟨.idle, [], step_of_sequencerTurn (.inl ⟨hs, rfl⟩)⟩
  | cons e rest => exact ⟨e, rest, step_cons hs⟩

end HostSide

/-- Settles O36: of the three ways of `FailsOnlyByRaise` only failure entry leads into FAILED from outside it. The flags
are those from before the step after `CapacityExceeded` too, because the room is checked first (log entry 11). -/
theorem everyFailureDiscardsTheOutput : Obligations.EveryFailureDiscardsTheOutput := by
  intro s t h hs ht
  obtain ⟨e, rest, hstep⟩ := step_eq_hostStep s
  obtain hkeeps | hnot | ⟨x, hx, hfails⟩ := hostStep_failsOnlyByRaise (hstep.symm.trans h)
  · exact absurd (hkeeps.symm.trans ht) hs
  · exact absurd ht hnot
  · obtain ⟨-, -, -, hhost, -⟩ := hfails.inputs
    have hcode := hfails.code
    exact ⟨hcode ▸ hx, hcode.symm ▸ hhost ▸ hfails⟩

end Machine
end Sys2Proof
end

section
/-! What one step can do, inverted once: a relation with one constructor per outcome of the sequencer's step, and one
with a constructor per kind of move (rules R123, R210 to R215, R228). -/

namespace Sys2Proof
namespace Machine

section SequencerOutcomes

/-- The sequencer stands at a unit of phase `ph`, and the stream holds all its bytes (rule R61). -/
structure AtUnit (ph : Phase) (s : State) : Prop where
  settled : s.PEND = []
  phase : s.PH = ph
  unit : (unitBytes s).isSome = true

/-- What must hold of a state for the sequencer's step from it to fail with a code (rules R222 to R225, R238). -/
def FailureCause (s : State) : ErrCode → Prop
  | .none => False
  | .malformedContainer => s.PH = .chdr
  | .truncatedStream => s.PH ≠ .chdr
  | .channelCountMismatch => s.PH = .fhdr ∧ s.FI ≠ 0
  | .channelLengthMismatch => s.PH = .asm ∧ lengthsAgree s.buffers = false
  | .capacityExceeded => ∃ n, s.posFits n = false ∨ s.samplesFit n = false

/-- What ASM leaves where its check passes (rules R200, R202). -/
def assembled (s : State) : State :=
  { s with
    PCM := interleave s.buffers (commonLength s.buffers)
    OUTLEN := commonLength s.buffers * s.CHANNELS.toNat
    PH := .done
    STATUS := .done }

/-- The states a step of the sequencer can answer: a pending field's, a completed unit's or ASM's, failure entry with the
unit consumed or not (`n` bytes), or the unchanged state while no step is enabled. -/
inductive SequencerEffect (s : State) : State → Prop
  | field {f : SubField} {fs : List SubField} (hpend : s.PEND = f :: fs) :
      SequencerEffect s (afterField (fieldEffect f { s with PEND := fs }))
  | chdr (total : BitVec 32) (hunit : AtUnit .chdr s) : SequencerEffect s (advance (chdrLatched total s))
  | fhdr (channels : BitVec 8) (rate : BitVec 24) (samples size : BitVec 16) (hunit : AtUnit .fhdr s)
      (hagree : s.FI = 0 ∨ channels = s.CHANNELS) :
      SequencerEffect s (advance (fhdrLatched channels rate samples size s))
  | lms (history weights : Taps) (hunit : AtUnit .lms s) :
      SequencerEffect s (advance ((s.consume Config.LMS_BYTES).setChannel history weights))
  | slc (sfi : BitVec 4) (codes : List (BitVec 3)) (hunit : AtUnit .slc s) (hcodes : codes.length = 20) :
      SequencerEffect s (endSlice (afterFields sfi codes s))
  | asm (hpend : s.PEND = []) (hph : s.PH = .asm) (hagree : lengthsAgree s.buffers = true) :
      SequencerEffect s (assembled s)
  | fails (x : ErrCode) (n : Nat) (hpend : s.PEND = []) (hbusy : statusOf s.PH = .busy) (hcause : FailureCause s x) :
      SequencerEffect s (raise x (s.consume n))
  | waits (hpend : s.PEND = []) (hwait : statusOf s.PH = .busy → s.EOS = false) : SequencerEffect s s

variable {s : State}

/-- Failure entry with no byte consumed. -/
theorem SequencerEffect.fails_unconsumed {x : ErrCode} (hpend : s.PEND = []) (hbusy : statusOf s.PH = .busy)
    (hcause : FailureCause s x) : SequencerEffect s (raise x s) :=
  .fails x 0 hpend hbusy hcause

theorem execChdr_effect (magic : Tag) (total : BitVec 32) (hunit : AtUnit .chdr s) :
    ∃ t, execChdr magic total s = .next t ∧ SequencerEffect s t := by
  have hbusy : statusOf s.PH = .busy := by rw [hunit.phase]; rfl
  obtain ⟨-, -, hexec⟩ | ⟨-, -, hexec⟩ | ⟨hfull, hexec⟩ := execChdr_cases magic total s
  · exact ⟨_, hexec, .chdr total hunit⟩
  · exact ⟨_, hexec, .fails _ _ hunit.settled hbusy hunit.phase⟩
  · exact ⟨_, hexec, .fails_unconsumed hunit.settled hbusy ⟨_, .inl hfull⟩⟩

theorem execFhdr_effect (channels : BitVec 8) (rate : BitVec 24) (samples size : BitVec 16) (hunit : AtUnit .fhdr s) :
    ∃ t, execFhdr channels rate samples size s = .next t ∧ SequencerEffect s t := by
  have hbusy : statusOf s.PH = .busy := by rw [hunit.phase]; rfl
  obtain ⟨-, hagree, hexec⟩ | ⟨-, hdiffer, hexec⟩ | ⟨hfull, hexec⟩ := execFhdr_cases channels rate samples size s
  · exact ⟨_, hexec, .fhdr channels rate samples size hunit hagree⟩
  · exact ⟨_, hexec, .fails _ _ hunit.settled hbusy ⟨hunit.phase, fun hframe => hdiffer (.inl hframe)⟩⟩
  · exact ⟨_, hexec, .fails_unconsumed hunit.settled hbusy ⟨_, .inl hfull⟩⟩

theorem execLms_effect (history weights : Taps) (hunit : AtUnit .lms s) :
    ∃ t, execLms history weights s = .next t ∧ SequencerEffect s t := by
  have hbusy : statusOf s.PH = .busy := by rw [hunit.phase]; rfl
  obtain ⟨-, hexec⟩ | ⟨hfull, hexec⟩ := execLms_cases history weights s
  · exact ⟨_, hexec, .lms history weights hunit⟩
  · exact ⟨_, hexec, .fails_unconsumed hunit.settled hbusy ⟨_, .inl hfull⟩⟩

theorem execSlc_effect (sfi : BitVec 4) {codes : List (BitVec 3)} (hunit : AtUnit .slc s) (hcodes : codes.length = 20) :
    ∃ t, execSlc sfi codes s = .next t ∧ SequencerEffect s t := by
  have hbusy : statusOf s.PH = .busy := by rw [hunit.phase]; rfl
  obtain ⟨-, -, hexec⟩ | ⟨hfull, hexec⟩ := execSlc_cases sfi codes s
  · exact ⟨_, hexec, .slc sfi codes hunit hcodes⟩
  · have hcause : FailureCause s .capacityExceeded :=
      hfull.elim (fun h => ⟨_, .inl h⟩) (fun h => ⟨_, .inr h⟩)
    exact ⟨_, hexec, .fails_unconsumed hunit.settled hbusy hcause⟩

theorem execAsm_effect (hpend : s.PEND = []) (hph : s.PH = .asm) :
    ∃ t, execAsm s = .next t ∧ SequencerEffect s t := by
  have hbusy : statusOf s.PH = .busy := by rw [hph]; rfl
  obtain ⟨hagree, -⟩ | ⟨hdiffer, hexec⟩ := execAsm_cases s
  · exact ⟨_, exec_asm_of_lengthsAgree hph hagree, .asm hpend hph hagree⟩
  · exact ⟨_, hexec, .fails_unconsumed hpend hbusy ⟨hph, hdiffer⟩⟩

/-- A phase other than ASM is busy exactly when it has a unit (rules R26, R67). -/
theorem unitLength_isSome_iff {ph : Phase} (h : ph ≠ .asm) : (unitLength ph).isSome = true ↔ statusOf ph = .busy := by
  cases ph <;> simp_all [unitLength, statusOf]

theorem atUnit_of_readBytes {ph : Phase} {n : Nat} {bs : List Byte} (hpend : s.PEND = []) (hph : s.PH = ph)
    (hu : unitLength ph = some n) (hread : s.readBytes n = some bs) : AtUnit ph s :=
  ⟨hpend, hph, by rw [unitBytes, hph, hu, Option.bind_some, hread]; rfl⟩

/-- A short read fails by its phase's code (rules R222, R223). -/
theorem failureCause_shortRead : FailureCause s (shortReadError s.PH) := by
  by_cases hph : s.PH = .chdr
  · rw [shortReadError, if_pos hph]; exact hph
  · rw [shortReadError, if_neg hph]; exact hph

theorem busy_of_shortRead (h : shortRead s = true) : statusOf s.PH = .busy := by
  have hlen : (unitLength s.PH).isSome = true := by simp_all [shortRead]
  have hne : s.PH ≠ .asm := fun hph => by simp [hph, unitLength] at hlen
  exact (unitLength_isSome_iff hne).mp hlen

theorem eos_of_waits (hnot : shortRead s = false) (hbytes : unitBytes s = none) (hne : s.PH ≠ .asm)
    (hbusy : statusOf s.PH = .busy) : s.EOS = false := by
  have hlen := (unitLength_isSome_iff hne).mpr hbusy
  simpa [shortRead, hlen, hbytes] using hnot

/-- The sequencer's step always answers a state, and one of these. -/
theorem sequencerStep_effect (s : State) : ∃ t, sequencerStep s = .next t ∧ SequencerEffect s t := by
  obtain ⟨f, fs, hp, hstep⟩ | ⟨hp, hph, hstep⟩ | ⟨hp, hph, bs, hread, hstep⟩ | ⟨hp, hph, bs, hread, hstep⟩ |
    ⟨hp, hph, bs, hread, hstep⟩ | ⟨hp, hph, bs, hread, hstep⟩ | ⟨hp, hshort, hstep⟩ |
    ⟨hp, hnot, hbytes, hne, hstep⟩ := sequencerStep_cases s
  · exact ⟨_, hstep, .field hp⟩
  · rw [hstep]; exact execAsm_effect hp hph
  · rw [hstep]; exact execChdr_effect _ _ (atUnit_of_readBytes hp hph rfl hread)
  · rw [hstep]; exact execFhdr_effect _ _ _ _ (atUnit_of_readBytes hp hph rfl hread)
  · rw [hstep]; exact execLms_effect _ _ (atUnit_of_readBytes hp hph rfl hread)
  · rw [hstep]; exact execSlc_effect _ (atUnit_of_readBytes hp hph rfl hread) (sliceCodes_length _)
  · exact ⟨_, hstep, .fails_unconsumed hp (busy_of_shortRead hshort) failureCause_shortRead⟩
  · exact ⟨_, hstep, .waits hp (eos_of_waits hnot hbytes hne)⟩

theorem effect_of_sequencerStep {t : State} (h : sequencerStep s = .next t) : SequencerEffect s t := by
  obtain ⟨u, hu, heffect⟩ := sequencerStep_effect s
  cases hu.symm.trans h
  exact heffect

end SequencerOutcomes

section Moves

/-- The states a step can answer, by who moves: the sequencer, a START that is taken, `RESET`, the input port, or a move
that changes nothing of the block (a refused command, a read). -/
inductive StepEffect (s : State) : State → Prop
  | sequencer {rest : List HostEvent} {t : State} (hturn : SequencerTurn s rest)
      (heffect : SequencerEffect { s with HOST := rest } t) : StepEffect s t
  | start {rest : List HostEvent} (hhost : s.HOST = .writeCmd 0x01 :: rest) (hidle : s.STATUS ≠ .busy) :
      StepEffect s (startDecode { s with HOST := rest })
  | reset {rest : List HostEvent} (hhost : s.HOST = .reset :: rest) : StepEffect s (resetBlock { s with HOST := rest })
  | offer (rest : List HostEvent) (bs : List Byte) : StepEffect s { s with HOST := rest, IN := s.IN.offer bs }
  | endStream (rest : List HostEvent) : StepEffect s { s with HOST := rest, EOS := true }
  | record (rest : List HostEvent) (replies : List Reply) (draws : Nat) :
      StepEffect s { s with HOST := rest, REPLIES := replies, DRAWS := draws }

variable {s t : State} {rest : List HostEvent}

/-- A register read records a reply, and counts a draw at most (rule R212). -/
theorem readReg_record {r : HostReg} (h : readReg r s = .next t) :
    ∃ replies draws, t = { s with REPLIES := replies, DRAWS := draws } := by
  have hr : r ≠ .CMD := by rintro rfl; cases h
  obtain ⟨unspecified, hread⟩ := readReg_eq_readWindow (s := s) hr
  obtain ⟨v, draws, hframe⟩ := readWindow_frame r (validWhen r s.STATUS) (readValue r s) unspecified s
  rw [hread, hframe] at h
  cases h
  exact ⟨_, _, rfl⟩

theorem readPcm_record (k : Nat) (s : State) :
    ∃ replies draws, readPcm k s = { s with REPLIES := replies, DRAWS := draws } := by
  unfold readPcm
  split
  · exact ⟨_, s.DRAWS, rfl⟩
  · exact ⟨_, s.DRAWS + 1, rfl⟩

theorem readPcmByte_record (k : Nat) (upper : Bool) (s : State) :
    ∃ replies draws, readPcmByte k upper s = { s with REPLIES := replies, DRAWS := draws } := by
  unfold readPcmByte
  split
  · exact ⟨_, s.DRAWS, rfl⟩
  · exact ⟨_, s.DRAWS + 1, rfl⟩

/-- A write of `CMD` is a START that is taken, or it is refused (rules R105, R210, R211). -/
theorem commandStep_effect {b : Byte} (hhost : s.HOST = .writeCmd b :: rest)
    (h : commandStep b { s with HOST := rest } = .next t) : StepEffect s t := by
  rw [commandStep_eq] at h
  split at h
  case isTrue hb =>
    subst hb
    obtain ⟨-, hstart⟩ | ⟨hidle, hstart⟩ := execStart_cases { s with HOST := rest } <;> cases hstart.symm.trans h
    · exact .record rest s.REPLIES s.DRAWS
    · exact .start hhost hidle
  case isFalse =>
    cases h
    exact .record rest s.REPLIES s.DRAWS

theorem hostStep_effect {e : HostEvent} (hhost : s.HOST = e :: rest)
    (h : hostStep e { s with HOST := rest } = .next t) : StepEffect s t := by
  cases e with
  | idle => exact .sequencer (.inr hhost) (effect_of_sequencerStep h)
  | writeCmd b => exact commandStep_effect hhost h
  | offer bs => rw [offerBytes_eq_next h]; exact .offer rest bs
  | endStream => cases h; exact .endStream rest
  | reset => cases h; exact .reset hhost
  | readReg r =>
    obtain ⟨replies, draws, rfl⟩ := readReg_record h
    exact .record rest replies draws
  | readPcm k =>
    cases h
    obtain ⟨replies, draws, hrecord⟩ := readPcm_record k { s with HOST := rest }
    rw [hrecord]
    exact .record rest replies draws
  | readPcmByte k upper =>
    cases h
    obtain ⟨replies, draws, hrecord⟩ := readPcmByte_record k upper { s with HOST := rest }
    rw [hrecord]
    exact .record rest replies draws

theorem effect_of_step (h : step s = .next t) : StepEffect s t := by
  cases hs : s.HOST with
  | nil =>
    have hturn : SequencerTurn s [] := .inl ⟨hs, rfl⟩
    exact .sequencer hturn (effect_of_sequencerStep ((step_of_sequencerTurn hturn).symm.trans h))
  | cons e rest => exact hostStep_effect hs ((step_cons hs).symm.trans h)

/-- On the sequencer's turn the step is one of the sequencer's. -/
theorem sequencerEffect_of_step (hturn : SequencerTurn s rest) (h : step s = .next t) :
    SequencerEffect { s with HOST := rest } t :=
  effect_of_sequencerStep ((step_of_sequencerTurn hturn).symm.trans h)

end Moves

end Machine
end Sys2Proof
end

section
/-! What every step keeps: the inputs and parameters, the flags, the other channels, and the code `CapacityExceeded`
(rules R22, R28, R238, R252). -/

namespace Sys2Proof
namespace Machine

section Samples

/-- A field latches a scale factor or leaves one sample of channel `CI` (rule R104). -/
theorem fieldEffect_cases (f : SubField) (s : State) :
    (∃ sf, fieldEffect f s = { s with SF := sf }) ∨ ∃ h w x po wo, fieldEffect f s = s.withSamples h w [x] po wo := by
  cases f with
  | sfi v => exact .inl ⟨sfRom v, rfl⟩
  | code q =>
    obtain ⟨h, w, x, po, wo, -, hstep⟩ := sampleStep_law q s
    exact .inr ⟨h, w, x, po, wo, hstep⟩

theorem afterField_cases (s : State) : afterField s = endSlice s ∨ afterField s = s := by
  unfold afterField
  split
  · exact .inl rfl
  · exact .inr rfl

@[simp] theorem fieldEffect_ERR (f : SubField) (s : State) : (fieldEffect f s).ERR = s.ERR := by cases f <;> rfl
@[simp] theorem fieldEffect_IN (f : SubField) (s : State) : (fieldEffect f s).IN = s.IN := by cases f <;> rfl
@[simp] theorem fieldEffect_EOS (f : SubField) (s : State) : (fieldEffect f s).EOS = s.EOS := by cases f <;> rfl
@[simp] theorem fieldEffect_CFG (f : SubField) (s : State) : (fieldEffect f s).CFG = s.CFG := by cases f <;> rfl

@[simp] theorem afterField_ERR (s : State) : (afterField s).ERR = s.ERR := by
  obtain h | h := afterField_cases s <;> simp [h]
@[simp] theorem afterField_POVF (s : State) : (afterField s).POVF = s.POVF := by
  obtain h | h := afterField_cases s <;> simp [h]
@[simp] theorem afterField_WOVF (s : State) : (afterField s).WOVF = s.WOVF := by
  obtain h | h := afterField_cases s <;> simp [h]
@[simp] theorem afterField_IN (s : State) : (afterField s).IN = s.IN := by
  obtain h | h := afterField_cases s <;> simp [h]
@[simp] theorem afterField_EOS (s : State) : (afterField s).EOS = s.EOS := by
  obtain h | h := afterField_cases s <;> simp [h]
@[simp] theorem afterField_CFG (s : State) : (afterField s).CFG = s.CFG := by
  obtain h | h := afterField_cases s <;> simp [h]
@[simp] theorem afterField_HOST (s : State) : (afterField s).HOST = s.HOST := by
  obtain h | h := afterField_cases s <;> simp [h]

/-- A field's events set flags and clear none (rule R28). -/
theorem fieldEffect_flags_kept (f : SubField) (s : State) :
    (s.POVF = true → (fieldEffect f s).POVF = true) ∧ (s.WOVF = true → (fieldEffect f s).WOVF = true) := by
  obtain ⟨sf, hfield⟩ | ⟨h, w, x, po, wo, hfield⟩ := fieldEffect_cases f s <;> rw [hfield]
  · exact ⟨id, id⟩
  · exact ⟨Bool.or_eq_true_iff.mpr ∘ .inl, Bool.or_eq_true_iff.mpr ∘ .inl⟩

/-- The fields of a slice leave as many samples of channel `CI` as there are codes to decode (rules R126, R150). -/
theorem afterFields_withSamples (sfi : BitVec 4) (codes : List (BitVec 3)) (s : State) : ∃ h w xs po wo,
    xs.length = (codes.take s.groupLen).length ∧
    afterFields sfi codes s = (latchScale sfi (s.consume Config.SLC_LEN)).withSamples h w xs po wo := by
  obtain ⟨h, w, xs, po, wo, hlen, -, hfold⟩ :=
    foldl_sampleStep_law (codes.take s.groupLen) (latchScale sfi (s.consume Config.SLC_LEN))
  exact ⟨h, w, xs, po, wo, hlen, hfold⟩

@[simp] theorem afterFields_PH (sfi : BitVec 4) (codes : List (BitVec 3)) (s : State) :
    (afterFields sfi codes s).PH = s.PH := by
  obtain ⟨h, w, xs, po, wo, -, hfields⟩ := afterFields_withSamples sfi codes s
  rw [hfields]; rfl

@[simp] theorem afterFields_CI (sfi : BitVec 4) (codes : List (BitVec 3)) (s : State) :
    (afterFields sfi codes s).CI = s.CI := by
  obtain ⟨h, w, xs, po, wo, -, hfields⟩ := afterFields_withSamples sfi codes s
  rw [hfields]; rfl

@[simp] theorem afterFields_POS (sfi : BitVec 4) (codes : List (BitVec 3)) (s : State) :
    (afterFields sfi codes s).POS = s.POS + Config.SLC_LEN := by
  obtain ⟨h, w, xs, po, wo, -, hfields⟩ := afterFields_withSamples sfi codes s
  rw [hfields]; rfl

@[simp] theorem afterFields_CHANNELS (sfi : BitVec 4) (codes : List (BitVec 3)) (s : State) :
    (afterFields sfi codes s).CHANNELS = s.CHANNELS := by
  obtain ⟨h, w, xs, po, wo, -, hfields⟩ := afterFields_withSamples sfi codes s
  rw [hfields]; rfl

end Samples

section Frames

variable {s t : State}

/-- The parameters, the input port and the host's script are the same. -/
structure SameInputs (s t : State) : Prop where
  cfg : t.CFG = s.CFG
  stream : t.IN = s.IN
  ended : t.EOS = s.EOS
  host : t.HOST = s.HOST

/-- The sequencer writes neither the parameters nor the input port nor the host's script. -/
theorem SequencerEffect.inputs (h : SequencerEffect s t) : SameInputs s t := by
  cases h with
  | field => constructor <;> simp
  | chdr => constructor <;> simp [chdrLatched]
  | fhdr => constructor <;> simp [fhdrLatched]
  | lms => constructor <;> simp
  | slc sfi codes =>
    obtain ⟨h, w, xs, po, wo, -, hfields⟩ := afterFields_withSamples sfi codes s
    constructor <;> simp [hfields, State.withSamples]
  | asm => exact ⟨rfl, rfl, rfl, rfl⟩
  | fails => constructor <;> simp
  | waits => exact ⟨rfl, rfl, rfl, rfl⟩

/-- The sequencer's events set flags and clear none (rule R28); failure entry keeps them (rule R228). -/
theorem SequencerEffect.flags_kept (h : SequencerEffect s t) :
    (s.POVF = true → t.POVF = true) ∧ (s.WOVF = true → t.WOVF = true) := by
  cases h with
  | @field f fs =>
    rw [afterField_POVF, afterField_WOVF]
    exact fieldEffect_flags_kept f { s with PEND := fs }
  | chdr => simp [chdrLatched]
  | fhdr => simp [fhdrLatched]
  | lms => simp
  | slc sfi codes =>
    obtain ⟨h, w, xs, po, wo, -, hfields⟩ := afterFields_withSamples sfi codes s
    simp +contextual [hfields, State.withSamples]
  | asm => exact ⟨id, id⟩
  | fails => simp
  | waits => exact ⟨id, id⟩

/-- With nothing pending, no step of the sequencer is enabled outside the busy phases (rule R123). -/
theorem SequencerEffect.eq_of_notBusy (h : SequencerEffect s t) (hp : s.PEND = []) (hph : statusOf s.PH ≠ .busy) :
    t = s := by
  cases h with
  | field hpend => simp [hp] at hpend
  | chdr _ hunit | fhdr _ _ _ _ hunit | lms _ _ hunit | slc _ _ hunit =>
    rw [hunit.phase] at hph; exact absurd rfl hph
  | asm _ hasm => rw [hasm] at hph; exact absurd rfl hph
  | fails _ _ _ hbusy => exact absurd hbusy hph
  | waits => rfl

/-- Channel `c` keeps its history, its weights and its buffer. -/
def SameChannel (c : Fin NCH_MAX) (s t : State) : Prop := t.H[c] = s.H[c] ∧ t.W[c] = s.W[c] ∧ t.CHBUF[c] = s.CHBUF[c]

/-- Samples of channel `CI` leave every other channel (rule R22). -/
theorem sameChannel_withSamples {c : Fin NCH_MAX} (hc : c ≠ s.CI) (h w : Taps) (xs : List S16) (po wo : Bool) :
    SameChannel c s (s.withSamples h w xs po wo) := by
  have hval : s.CI.val ≠ c.val := fun h => hc (Fin.ext h.symm)
  simp [SameChannel, State.withSamples, hval]

theorem sameChannel_advance (c : Fin NCH_MAX) (s : State) : SameChannel c s (advance s) := by
  simp [SameChannel]

theorem sameChannel_endSlice (c : Fin NCH_MAX) (s : State) : SameChannel c s (endSlice s) := by
  simp [SameChannel]

theorem SameChannel.trans {c : Fin NCH_MAX} {u : State} (h : SameChannel c s u) (g : SameChannel c u t) :
    SameChannel c s t := by
  obtain ⟨hH, hW, hCHBUF⟩ := h
  obtain ⟨gH, gW, gCHBUF⟩ := g
  exact ⟨gH.trans hH, gW.trans hW, gCHBUF.trans hCHBUF⟩

theorem sameChannel_fieldEffect {c : Fin NCH_MAX} (hc : c ≠ s.CI) (f : SubField) :
    SameChannel c s (fieldEffect f s) := by
  obtain ⟨sf, hfield⟩ | ⟨h, w, x, po, wo, hfield⟩ := fieldEffect_cases f s <;> rw [hfield]
  · exact ⟨rfl, rfl, rfl⟩
  · exact sameChannel_withSamples hc h w [x] po wo

/-- But for failure entry, the sequencer writes the registers and the buffer of channel `CI` alone (rule R22). -/
theorem SequencerEffect.sameChannel (h : SequencerEffect s t) (hfail : t.PH = .failed → s.PH = .failed)
    {c : Fin NCH_MAX} (hc : c ≠ s.CI) : SameChannel c s t := by
  cases h with
  | @field f fs =>
    have hfield := sameChannel_fieldEffect (s := { s with PEND := fs }) hc f
    obtain hafter | hafter := afterField_cases (fieldEffect f { s with PEND := fs }) <;> rw [hafter]
    · exact hfield.trans (sameChannel_endSlice c _)
    · exact hfield
  | chdr total => exact sameChannel_advance c (chdrLatched total s)
  | fhdr channels rate samples size => exact sameChannel_advance c (fhdrLatched channels rate samples size s)
  | lms history weights =>
    have hval : s.CI.val ≠ c.val := fun h => hc (Fin.ext h.symm)
    simp [SameChannel, hval]
  | slc sfi codes =>
    obtain ⟨h, w, xs, po, wo, -, hfields⟩ := afterFields_withSamples sfi codes s
    rw [hfields]
    have hsamples := sameChannel_withSamples (s := latchScale sfi (s.consume Config.SLC_LEN)) hc h w xs po wo
    exact hsamples.trans (sameChannel_endSlice c _)
  | asm => exact ⟨rfl, rfl, rfl⟩
  | fails _ _ _ hbusy => rw [hfail rfl] at hbusy; cases hbusy
  | waits => exact ⟨rfl, rfl, rfl⟩

/-- With the unbounded parameters there is always room (rule R238). -/
theorem not_capacity_cause (hcap : s.CFG.PCM_CAPACITY = none) (hpos : s.CFG.POS_WIDTH = none) :
    ¬ FailureCause s .capacityExceeded := by
  rintro ⟨n, h | h⟩
  · simp [State.posFits, hpos] at h
  · simp [State.samplesFit, hcap] at h

/-- What completes leaves `ERR`; a failure writes its code (rules R27, R228). -/
theorem SequencerEffect.err (h : SequencerEffect s t) : t.ERR = s.ERR ∨ FailureCause s t.ERR := by
  cases h with
  | field => left; simp
  | chdr => left; simp [chdrLatched]
  | fhdr => left; simp
  | lms => left; simp
  | slc sfi codes =>
    obtain ⟨h, w, xs, po, wo, -, hfields⟩ := afterFields_withSamples sfi codes s
    left; simp [hfields, State.withSamples]
  | asm => exact .inl rfl
  | fails x n _ _ hcause => exact .inr hcause
  | waits => exact .inl rfl

end Frames

/-- Settles O48: the parameters are no field any move writes. -/
theorem parametersAreConstant : Obligations.ParametersAreConstant := by
  intro s t h
  cases effect_of_step h with
  | sequencer _ heffect => exact heffect.inputs.cfg
  | start | reset | offer | endStream | record => rfl

/-- Settles O46: but for START and `RESET`, only the sequencer writes the flags. -/
theorem flagsClearedOnlyByStartAndReset : Obligations.FlagsClearedOnlyByStartAndReset := by
  intro s t h hnot
  cases effect_of_step h with
  | sequencer _ heffect => exact heffect.flags_kept
  | start hhost => exact absurd (.inl ⟨_, hhost⟩) hnot
  | reset hhost => exact absurd (.inr ⟨_, hhost⟩) hnot
  | offer | endStream | record => exact ⟨id, id⟩

/-- Settles O47: but for START and `RESET`, only the sequencer writes the channels' registers and buffers. -/
theorem onlyTheCurrentChannelChanges : Obligations.OnlyTheCurrentChannelChanges := by
  intro s t h hnot hfail c hc
  cases effect_of_step h with
  | sequencer _ heffect => exact heffect.sameChannel hfail hc
  | start hhost => exact absurd (.inl ⟨_, hhost⟩) hnot
  | reset hhost => exact absurd (.inr ⟨_, hhost⟩) hnot
  | offer | endStream | record => exact ⟨rfl, rfl, rfl⟩

/-- Settles O39: the code is written only by a failure that lacked room, and without bounds there is room. -/
theorem unboundedNeverExceedsCapacity : Obligations.UnboundedNeverExceedsCapacity := by
  intro s t hcap hpos h hcode
  cases effect_of_step h with
  | @sequencer rest _ _ heffect =>
    obtain hkept | hcause := heffect.err
    · exact hkept.symm.trans hcode
    · rw [hcode] at hcause
      exact absurd hcause (not_capacity_cause (s := { s with HOST := rest }) hcap hpos)
  | start | reset => cases hcode
  | offer | endStream | record => exact hcode

/-- Settles O37: with nothing pending, the sequencer, the input port and the reads write none of an ended decode's
fields. -/
theorem endedDecodeIsImmutable : Obligations.EndedDecodeIsImmutable := by
  intro s t hp hph hnot h
  have hidle : statusOf s.PH ≠ .busy := by obtain hph | hph := hph <;> rw [hph] <;> decide
  cases effect_of_step h with
  | sequencer _ heffect => rw [heffect.eq_of_notBusy hp hidle]
  | start hhost => exact absurd (.inl ⟨_, hhost⟩) hnot
  | reset hhost => exact absurd (.inr ⟨_, hhost⟩) hnot
  | offer | endStream | record => rfl

/-- Settles O22: a completed unit consumes its length, ASM nothing; the other outcomes are failure entry and the unchanged
state. -/
theorem unitsConsumeExactlyTheirBytes : Obligations.UnitsConsumeExactlyTheirBytes := by
  intro s t rest hturn hp h
  have heffect := sequencerEffect_of_step hturn h
  obtain ⟨-, hin, -⟩ := heffect.inputs
  cases heffect with
  | field hpend => cases hp.symm.trans hpend
  | chdr total hunit =>
    exact .inr (.inr (.inl ⟨_, congrArg unitLength hunit.phase, by simp [chdrLatched], hin.symm⟩))
  | fhdr _ _ _ _ hunit =>
    exact .inr (.inr (.inl ⟨_, congrArg unitLength hunit.phase, by simp [fhdrLatched], hin.symm⟩))
  | lms _ _ hunit => exact .inr (.inr (.inl ⟨_, congrArg unitLength hunit.phase, by simp, hin.symm⟩))
  | slc _ _ hunit => exact .inr (.inr (.inl ⟨_, congrArg unitLength hunit.phase, by simp, hin.symm⟩))
  | asm _ hph => exact .inr (.inr (.inr ⟨hph, rfl, rfl⟩))
  | fails => exact .inl rfl
  | waits => exact .inr (.inl rfl)

end Machine
end Sys2Proof
end

section
/-! The invariant of a run and the balance of the buffers, kept by every step (rules R24 to R36, R126, R201, R225). -/

namespace Sys2Proof
namespace Machine

section Advance

variable {s : State}

/-- From the phase of a unit the sequencer goes to a busy phase (rule R123). -/
theorem statusOf_advance (hbusy : statusOf s.PH = .busy) (hne : s.PH ≠ .asm) : statusOf (advance s).PH = .busy := by
  have hend : statusOf (frameEnd s).PH = .busy := by
    obtain ⟨-, h⟩ | ⟨-, h⟩ := frameEnd_cases s <;> rw [h] <;> rfl
  cases hph : s.PH with
  | chdr => rw [advance_chdr hph]; rfl
  | fhdr => rw [advance_fhdr hph]; split; exacts [hend, rfl]
  | lms => rw [advance_lms hph]; split_ifs; exacts [hph ▸ rfl, hend, rfl]
  | slc => rw [advance_slc hph]; split_ifs; exacts [hph ▸ rfl, hph ▸ rfl, hend]
  | asm => exact absurd hph hne
  | idle | done | failed => rw [hph] at hbusy; cases hbusy

theorem frameEnd_FI_lt (hfi : s.FI < 2 ^ 20) (hnf : s.NFRAMES < 2 ^ 20) : (frameEnd s).FI < 2 ^ 20 := by
  obtain ⟨hnext, h⟩ | ⟨-, h⟩ := frameEnd_cases s <;> rw [h]
  · exact hnext.trans hnf
  · exact hfi

/-- The frame index grows only below the frame count (rules R24, R30). -/
theorem advance_FI_lt (hfi : s.FI < 2 ^ 20) (hnf : s.NFRAMES < 2 ^ 20) : (advance s).FI < 2 ^ 20 := by
  have hend := frameEnd_FI_lt hfi hnf
  cases hph : s.PH with
  | chdr => rw [advance_chdr hph]; exact Nat.two_pow_pos 20
  | fhdr => rw [advance_fhdr hph]; split; exacts [hend, hfi]
  | lms => rw [advance_lms hph]; split_ifs; exacts [hfi, hend, hfi]
  | slc => rw [advance_slc hph]; split_ifs; exacts [hfi, hfi, hend]
  | asm => rw [advance_asm hph]; exact hfi
  | idle | done | failed => rw [advance_of_notBusy (by simp [hph])]; exact hfi

/-- The slice group index grows only below the group count (rules R24, R35). -/
theorem advance_SI_lt (hsi : s.SI < 2 ^ 12) (hns : s.NSLICES < 2 ^ 12) : (advance s).SI < 2 ^ 12 := by
  have hend : (frameEnd s).SI < 2 ^ 12 := by rw [frameEnd_SI]; exact hsi
  cases hph : s.PH with
  | chdr => rw [advance_chdr hph]; exact hsi
  | fhdr => rw [advance_fhdr hph]; split; exacts [hend, hsi]
  | lms => rw [advance_lms hph]; split_ifs; exacts [hsi, hend, Nat.two_pow_pos 12]
  | slc => rw [advance_slc hph]; split_ifs with _ hnext; exacts [hsi, hnext.trans hns, hend]
  | asm => rw [advance_asm hph]; exact hsi
  | idle | done | failed => rw [advance_of_notBusy (by simp [hph])]; exact hsi

end Advance

section Invariant

variable {s t : State}

/-- `advance()` from the phase of a unit keeps the invariant. -/
theorem State.Inv.advance (h : s.Inv) (hbusy : statusOf s.PH = .busy) (hne : s.PH ≠ .asm) : (advance s).Inv where
  status := by rw [advance_STATUS, h.status, hbusy, statusOf_advance hbusy hne]
  err := by simpa using h.err
  outlen := by simpa using h.outlen
  unpublished := by simpa using h.unpublished
  rate := by simpa using h.rate
  frames := advance_FI_lt h.frames h.nframes
  groups := advance_SI_lt h.groups h.nslices
  nframes := by simpa using h.nframes
  nslices := by simpa using h.nslices
  stream := by simpa using h.stream
  settled := by simpa using h.settled

/-- 20 bits hold every frame count (rule R30). -/
theorem frameCount_lt (total : BitVec 32) : frameCount total < 2 ^ 20 := by
  have := total.isLt
  unfold frameCount Config.FRAME_LEN
  omega

/-- 12 bits hold every slice group count (rule R35). -/
theorem sliceGroups_lt (ns : BitVec 16) : sliceGroups ns < 2 ^ 12 := by
  rw [sliceGroups_eq]
  omega

/-- A 24-bit rate leaves bits 31:24 zero (rule R32). -/
theorem toNat_setWidth_rate_lt (rate : BitVec 24) : (rate.setWidth 32).toNat < 2 ^ 24 := by
  rw [BitVec.toNat_setWidth_of_le (by omega)]
  exact rate.isLt

theorem State.Inv.chdrLatched (h : s.Inv) (total : BitVec 32) : (chdrLatched total s).Inv :=
  { h with nframes := frameCount_lt total }

theorem State.Inv.fhdrLatched (h : s.Inv) (channels : BitVec 8) (rate : BitVec 24) (samples size : BitVec 16) :
    (fhdrLatched channels rate samples size s).Inv :=
  { h with rate := toNat_setWidth_rate_lt rate, nslices := sliceGroups_lt samples }

theorem State.Inv.lmsLoaded (h : s.Inv) (history weights : Taps) :
    ((s.consume Config.LMS_BYTES).setChannel history weights).Inv :=
  { h with }

/-- A slice's fields leave nothing the invariant speaks of but the scale factor, which the end of the slice clears. -/
theorem State.Inv.afterFields (h : s.Inv) (sfi : BitVec 4) (codes : List (BitVec 3)) :
    ({ afterFields sfi codes s with SF := 0, PEND := [] } : State).Inv := by
  obtain ⟨h', w, xs, po, wo, -, hfields⟩ := afterFields_withSamples sfi codes s
  rw [hfields]
  exact { h with settled := ⟨rfl, rfl⟩ }

/-- ASM publishes as many words as `OUTLEN` says (rules R36, R202). -/
theorem length_assembled_PCM (hagree : lengthsAgree s.buffers = true) :
    (assembled s).OUTLEN = (assembled s).PCM.length := by
  have hlen := interleave_length _ _ ((lengthsAgree_iff _).mp hagree)
  rw [buffers_length] at hlen
  exact hlen.symm

theorem State.Inv.assembled (h : s.Inv) (hph : s.PH = .asm) (hagree : lengthsAgree s.buffers = true) :
    (assembled s).Inv :=
  { h with
    status := rfl
    err := by
      have hok : s.ERR = .none := by
        by_contra hne
        have hfailed := h.err.mp hne
        rw [h.status, hph] at hfailed
        cases hfailed
      simp [Machine.assembled, hok]
    outlen := length_assembled_PCM hagree
    unpublished := fun hne => absurd rfl hne }

/-- The free values of failure entry keep the widths of their registers (rule R228; log entry 8). -/
theorem inv_raise {x : ErrCode} (hx : x ≠ .none) (hstream : s.IN.wf = true) : (raise x s).Inv where
  status := rfl
  err := ⟨fun _ => rfl, fun _ => hx⟩
  outlen := rfl
  unpublished _ := rfl
  rate := toNat_setWidth_rate_lt _
  frames := BitVec.isLt _
  groups := BitVec.isLt _
  nframes := BitVec.isLt _
  nslices := BitVec.isLt _
  stream := hstream
  settled := ⟨rfl, rfl⟩

theorem State.Inv.startDecode (h : s.Inv) : (startDecode s).Inv :=
  { h with
    status := rfl
    err := by simp
    outlen := rfl
    unpublished := fun _ => rfl
    frames := Nat.two_pow_pos 20
    groups := Nat.two_pow_pos 12
    stream := rfl }

/-- Settles O45: the invariant speaks of `State.reset` field by field (log entry 7). -/
theorem resetMeetsTheInvariant : Obligations.ResetMeetsTheInvariant where
  status := rfl
  err := by decide
  outlen := rfl
  unpublished _ := rfl
  rate := Nat.two_pow_pos 24
  frames := Nat.two_pow_pos 20
  groups := Nat.two_pow_pos 12
  nframes := Nat.two_pow_pos 20
  nslices := Nat.two_pow_pos 12
  stream := rfl
  settled := ⟨rfl, rfl⟩

theorem FailureCause.ne_none {x : ErrCode} (h : FailureCause s x) : x ≠ .none := by
  rintro rfl; exact h

theorem SequencerEffect.inv (h : SequencerEffect s t) (hinv : s.Inv) : t.Inv := by
  cases h with
  | field hpend =>
    obtain ⟨hp, -⟩ := hinv.settled
    cases hp.symm.trans hpend
  | chdr total hunit =>
    have hph : (Machine.chdrLatched total s).PH = .chdr := hunit.phase
    exact (hinv.chdrLatched total).advance (by rw [hph]; rfl) (by rw [hph]; decide)
  | fhdr channels rate samples size hunit =>
    have hph : (Machine.fhdrLatched channels rate samples size s).PH = .fhdr := hunit.phase
    exact (hinv.fhdrLatched channels rate samples size).advance (by rw [hph]; rfl) (by rw [hph]; decide)
  | lms history weights hunit =>
    have hph : ((s.consume Config.LMS_BYTES).setChannel history weights).PH = .lms := hunit.phase
    exact (hinv.lmsLoaded history weights).advance (by rw [hph]; rfl) (by rw [hph]; decide)
  | slc sfi codes hunit =>
    have hph : (Machine.afterFields sfi codes s).PH = .slc := (afterFields_PH sfi codes s).trans hunit.phase
    exact (hinv.afterFields sfi codes).advance (by rw [hph]; rfl) (by rw [hph]; decide)
  | asm _ hph hagree => exact hinv.assembled hph hagree
  | fails x n _ _ hcause => exact inv_raise hcause.ne_none hinv.stream
  | waits => exact hinv

end Invariant

/-- Settles O44: each outcome of a step keeps the invariant. After a failure it holds by the widths of the free values. -/
theorem invariantKeptByEveryStep : Obligations.InvariantKeptByEveryStep := by
  intro s t hinv h
  cases effect_of_step h with
  | sequencer _ heffect => exact heffect.inv { hinv with }
  | start => exact State.Inv.startDecode { hinv with }
  | reset => exact { resetMeetsTheInvariant with }
  | offer rest bs => exact { hinv with stream := Memory.wf_offer hinv.stream bs }
  | endStream | record => exact { hinv with }

section Balance

variable {s t : State}

/-- The buffers of the channels in use are equally long: the balance outside a slice group. -/
def State.Even (s : State) : Prop := ∃ n, ∀ c : Fin NCH_MAX, c.val < s.CHANNELS.toNat → s.bufLen c = n

/-- The buffers up to and including `CI` are ahead by the group's samples: the balance between the samples of a slice and
the sequencer's advance. -/
def State.AheadUpTo (s : State) : Prop :=
  ∃ n, ∀ c : Fin NCH_MAX, c.val < s.CHANNELS.toNat → s.bufLen c = n + if c ≤ s.CI then s.groupLen else 0

theorem balanced_of_noSamples (hph : s.PH = .idle ∨ s.PH = .chdr ∨ s.PH = .failed) :
    s.Balanced ↔ ∀ c : Fin NCH_MAX, s.CHBUF[c] = [] := by
  obtain hph | hph | hph := hph <;> simp only [State.Balanced, hph]

theorem balanced_fhdr (hph : s.PH = .fhdr) :
    s.Balanced ↔ (s.FI = 0 → ∀ c : Fin NCH_MAX, s.CHBUF[c] = []) ∧ s.Even := by
  simp only [State.Balanced, hph, State.Even]

theorem balanced_lms (hph : s.PH = .lms) : s.Balanced ↔ s.CI.val < s.CHANNELS.toNat ∧ s.Even := by
  simp only [State.Balanced, hph, State.Even]

theorem balanced_slc (hph : s.PH = .slc) : s.Balanced ↔ s.CI.val < s.CHANNELS.toNat ∧
    ∃ n, ∀ c : Fin NCH_MAX, c.val < s.CHANNELS.toNat → s.bufLen c = n + if c < s.CI then s.groupLen else 0 := by
  simp only [State.Balanced, hph]

theorem balanced_asm (hph : s.PH = .asm) : s.Balanced ↔ s.Even := by
  simp only [State.Balanced, hph, State.Even]

theorem balanced_done (hph : s.PH = .done) : s.Balanced := by
  simp only [State.Balanced, hph]

/-- Without a sample the buffers are equally long, whatever the channel count. -/
theorem even_of_noSamples (h : ∀ c : Fin NCH_MAX, s.CHBUF[c] = []) : s.Even :=
  ⟨0, fun c _ => by rw [State.bufLen, h c, List.length_nil]⟩

theorem frameEnd_balanced (h : s.Even) : (frameEnd s).Balanced := by
  obtain ⟨-, hend⟩ | ⟨-, hend⟩ := frameEnd_cases s <;> rw [hend]
  · exact (balanced_fhdr rfl).mpr ⟨fun hzero => absurd hzero (Nat.succ_ne_zero _), h⟩
  · exact (balanced_asm rfl).mpr h

theorem advance_balanced_fhdr (hph : s.PH = .fhdr) (h : s.Even) : (advance s).Balanced := by
  rw [advance_fhdr hph]
  split
  case isTrue => exact frameEnd_balanced h
  case isFalse hne => exact (balanced_lms rfl).mpr ⟨Nat.pos_of_ne_zero hne, h⟩

theorem advance_balanced_lms (hph : s.PH = .lms) (hci : s.CI.val < s.CHANNELS.toNat) (h : s.Even) :
    (advance s).Balanced := by
  rw [advance_lms hph]
  split_ifs with hnext
  · exact (balanced_lms (s := { s with CI := nextChannel s hnext }) hph).mpr ⟨hnext, h⟩
  · exact frameEnd_balanced h
  · obtain ⟨n, hn⟩ := h
    refine (balanced_slc rfl).mpr ⟨Nat.zero_lt_of_lt hci, n, fun c hc => ?_⟩
    rw [if_neg (Fin.not_lt_zero c)]
    exact hn c hc

/-- At the last channel of a slice group every channel has run it. -/
theorem State.AheadUpTo.even (h : s.AheadUpTo) (hlast : ¬ s.CI.val + 1 < s.CHANNELS.toNat) : s.Even := by
  obtain ⟨n, hn⟩ := h
  refine ⟨n + s.groupLen, fun c hc => ?_⟩
  have hle : c ≤ s.CI := Fin.le_def.mpr (by omega)
  rw [hn c hc, if_pos hle]

theorem advance_balanced_slc (hph : s.PH = .slc) (hci : s.CI.val < s.CHANNELS.toNat) (h : s.AheadUpTo) :
    (advance s).Balanced := by
  rw [advance_slc hph]
  split_ifs with hnext
  · obtain ⟨n, hn⟩ := h
    refine (balanced_slc (s := { s with CI := nextChannel s hnext }) hph).mpr ⟨hnext, n, fun c hc => (hn c hc).trans ?_⟩
    have hlt : c ≤ s.CI ↔ c < nextChannel s hnext := by
      rw [Fin.le_def, Fin.lt_def, nextChannel_val, Nat.lt_succ_iff]
    simp only [hlt]; rfl
  · obtain ⟨n, hn⟩ := h.even hnext
    refine (balanced_slc (s := { s with SI := s.SI + 1, CI := 0 }) hph).mpr ⟨Nat.zero_lt_of_lt hci, n, fun c hc => ?_⟩
    rw [if_neg (Fin.not_lt_zero c)]
    exact hn c hc
  · exact frameEnd_balanced (h.even hnext)

/-- A slice with its twenty codes appends the group's samples to the buffer of channel `CI`, and to no other. -/
theorem aheadUpTo_afterFields (sfi : BitVec 4) {codes : List (BitVec 3)} (hcodes : codes.length = 20)
    (h : ∃ n, ∀ c : Fin NCH_MAX, c.val < s.CHANNELS.toNat → s.bufLen c = n + if c < s.CI then s.groupLen else 0) :
    ({ afterFields sfi codes s with SF := 0, PEND := [] } : State).AheadUpTo := by
  obtain ⟨h', w, xs, po, wo, hlen, hfields⟩ := afterFields_withSamples sfi codes s
  rw [List.length_take, hcodes, Nat.min_eq_left (groupLen_le s)] at hlen
  obtain ⟨n, hn⟩ := h
  refine ⟨n, fun c hc => ?_⟩
  rw [hfields] at hc ⊢
  have hgroup : s.bufLen c = n + if c < s.CI then s.groupLen else 0 := hn c hc
  show ((s.CHBUF.set s.CI (s.CHBUF[s.CI] ++ xs))[c]).length = n + if c ≤ s.CI then s.groupLen else 0
  by_cases heq : c = s.CI
  · subst heq
    rw [if_neg (lt_irrefl _)] at hgroup
    simp only [Fin.getElem_fin, Vector.getElem_set_self, List.length_append, hlen, le_refl, if_true]
    simp only [State.bufLen, Fin.getElem_fin] at hgroup
    omega
  · have hval : s.CI.val ≠ c.val := fun h => heq (Fin.ext h.symm)
    have hle : c ≤ s.CI ↔ c < s.CI := ⟨fun h => lt_of_le_of_ne h heq, le_of_lt⟩
    simp only [Fin.getElem_fin, Vector.getElem_set_ne _ _ hval, hle]
    exact hgroup

/-- Equally long buffers pass ASM's check (rule R201). -/
theorem lengthsAgree_of_even (h : s.Even) : lengthsAgree s.buffers = true := by
  obtain ⟨n, hn⟩ := h
  exact lengthsAgree_of_length_eq (forall_mem_buffers_length_eq hn)

/-- A completed unit leaves nothing pending where nothing was. -/
theorem SequencerEffect.settled (h : SequencerEffect s t) (hp : s.PEND = []) : t.PEND = [] := by
  cases h with
  | field hpend => cases hp.symm.trans hpend
  | chdr => simpa [chdrLatched] using hp
  | fhdr => simpa [fhdrLatched] using hp
  | lms => simpa using hp
  | slc => simp
  | asm => exact hp
  | fails => rfl
  | waits => exact hp

theorem SequencerEffect.balanced (h : SequencerEffect s t) (hp : s.PEND = []) (hbal : s.Balanced) : t.Balanced := by
  cases h with
  | field hpend => cases hp.symm.trans hpend
  | chdr total hunit =>
    have hempty := (balanced_of_noSamples (.inr (.inl hunit.phase))).mp hbal
    rw [advance_chdr (s := chdrLatched total s) hunit.phase]
    exact (balanced_fhdr rfl).mpr ⟨fun _ => hempty, even_of_noSamples hempty⟩
  | fhdr channels rate samples size hunit hagree =>
    obtain ⟨hempty, heven⟩ := (balanced_fhdr hunit.phase).mp hbal
    refine advance_balanced_fhdr hunit.phase ?_
    obtain hfirst | rfl := hagree
    · exact even_of_noSamples (hempty hfirst)
    · exact heven
  | lms history weights hunit =>
    obtain ⟨hci, heven⟩ := (balanced_lms hunit.phase).mp hbal
    exact advance_balanced_lms hunit.phase hci heven
  | slc sfi codes hunit hcodes =>
    obtain ⟨hci, hgroup⟩ := (balanced_slc hunit.phase).mp hbal
    have hahead := aheadUpTo_afterFields sfi hcodes hgroup
    refine advance_balanced_slc ((afterFields_PH sfi codes s).trans hunit.phase) ?_ hahead
    simpa using hci
  | asm => exact balanced_done rfl
  | fails x n => exact (balanced_of_noSamples (.inr (.inr rfl))).mpr fun c => (raise_fails x (s.consume n)).noBuffers c
  | waits => exact hbal

/-- In a balanced state ASM's check passes, so that no step fails by it (rule R225). -/
theorem State.Balanced.not_lengthMismatch (hbal : s.Balanced) : ¬ FailureCause s .channelLengthMismatch := by
  rintro ⟨hph, hdiffer⟩
  rw [lengthsAgree_of_even ((balanced_asm hph).mp hbal)] at hdiffer
  cases hdiffer

/-- The reset state's buffers are empty, as its phase IDLE asks. -/
theorem reset_balanced : State.reset.Balanced :=
  (balanced_of_noSamples (.inl rfl)).mpr fun c => reset_CHBUF_getElem c c.isLt

theorem startDecode_balanced (s : State) : (startDecode s).Balanced :=
  (balanced_of_noSamples (.inr (.inl rfl))).mpr fun c => by simp

end Balance

/-- Settles O31: each outcome of a step keeps the balance, and only ASM's check on unequal buffers writes the code. -/
theorem buffersStayBalanced : Obligations.BuffersStayBalanced := by
  intro s t hp hbal h
  cases effect_of_step h with
  | @sequencer rest _ _ heffect =>
    have hbal' : State.Balanced { s with HOST := rest } := hbal
    refine ⟨heffect.settled hp, heffect.balanced hp hbal', fun hcode => ?_⟩
    obtain hkept | hcause := heffect.err
    · exact hkept.symm.trans hcode
    · rw [hcode] at hcause
      exact absurd hcause hbal'.not_lengthMismatch
  | start => exact ⟨hp, startDecode_balanced _, fun hcode => nomatch hcode⟩
  | reset => exact ⟨rfl, reset_balanced, fun hcode => nomatch hcode⟩
  | offer | endStream | record => exact ⟨hp, hbal, id⟩

/-- Settles O32: every buffer of the reset state is empty, as its phase asks. -/
theorem resetIsBalanced : Obligations.ResetIsBalanced :=
  ⟨rfl, reset_balanced, fun c => congrArg List.length (reset_CHBUF_getElem c c.isLt)⟩

end Machine
end Sys2Proof
end

section
/-! The decoder and the encoder are each other's inverse, and the fields of the units in numbers (rules R91 to R105). -/

namespace Sys2Proof

open Machine

section Fields

/-- A field of `w` bits in `w / 8` bytes holds the bytes' value whole (rule R95). -/
theorem toNat_ofNat_be {w : Nat} {bs : List Byte} (hw : w = 8 * bs.length) : (BitVec.ofNat w (be bs)).toNat = be bs := by
  have hlt : be bs < 2 ^ w := by
    rw [hw, pow_mul]
    exact be_lt bs
  rw [BitVec.toNat_ofNat, Nat.mod_eq_of_lt hlt]

/-- The bytes of a field's value are the field's bytes. -/
theorem bytesBE_toNat_ofNat_be {n w : Nat} {bs : List Byte} (hn : bs.length = n) (hw : w = 8 * n) :
    bytesBE n (BitVec.ofNat w (be bs)).toNat = bs := by
  subst hn
  rw [toNat_ofNat_be hw, bytesBE_be]

/-- The value of a field's bytes is the field. -/
theorem ofNat_be_bytesBE {n w : Nat} (hw : w = 8 * n) (v : BitVec w) : BitVec.ofNat w (be (bytesBE n v.toNat)) = v := by
  have hlt : v.toNat < 256 ^ n := by
    have h := v.isLt
    rwa [show (256 : Nat) = 2 ^ 8 by rfl, ← pow_mul, ← hw]
  rw [be_bytesBE_of_lt hlt, BitVec.ofNat_toNat, BitVec.setWidth_eq]

/-- Two bytes as a signed field (rule R96). -/
theorem toInt_ofNat_be_pair (b0 b1 : Byte) : (BitVec.ofNat 16 (be [b0, b1])).toInt = sext16 b0 b1 := by
  have hbe : be [b0, b1] = b0.toNat * 256 + b1.toNat := by simp [be_cons]
  have h0 := b0.isLt
  have h1 := b1.isLt
  rw [BitVec.toInt_eq_toNat_cond, toNat_ofNat_be (by rfl), hbe, sext16]
  split_ifs <;> omega

end Fields

section Headers

theorem decode_fhdr {bs : List Byte} (h : bs.length = Config.FHDR_LEN) : decode (.stream .fhdr bs) = .ok (readFhdr bs) :=
  if_pos h

theorem decode_lms {bs : List Byte} (h : bs.length = Config.LMS_BYTES) : decode (.stream .lms bs) = .ok (readLms bs) :=
  if_pos h

/-- The fields of a container header's eight bytes (rule R91). -/
theorem readChdr_eq (m0 m1 m2 m3 b0 b1 b2 b3 : Byte) : readChdr [m0, m1, m2, m3, b0, b1, b2, b3] =
    .chdr ⟨m0, m1, m2, m3⟩ (BitVec.ofNat 32 (be [b0, b1, b2, b3])) := by
  simp [readChdr, byteAt, fieldBE]

/-- The fields of a frame header's eight bytes (rules R92, R97). -/
theorem readFhdr_eq (c r0 r1 r2 n0 n1 z0 z1 : Byte) : readFhdr [c, r0, r1, r2, n0, n1, z0, z1] =
    .fhdr c (BitVec.ofNat 24 (be [r0, r1, r2])) (BitVec.ofNat 16 (be [n0, n1])) (BitVec.ofNat 16 (be [z0, z1])) := by
  simp [readFhdr, fieldBE]

/-- The fields of an LMS unit's sixteen bytes (rules R93, R143). -/
theorem readLms_eq (a0 a1 b0 b1 c0 c1 d0 d1 e0 e1 f0 f1 g0 g1 h0 h1 : Byte) :
    readLms [a0, a1, b0, b1, c0, c1, d0, d1, e0, e1, f0, f1, g0, g1, h0, h1] =
      .lms ⟨BitVec.ofNat 16 (be [a0, a1]), BitVec.ofNat 16 (be [b0, b1]), BitVec.ofNat 16 (be [c0, c1]),
          BitVec.ofNat 16 (be [d0, d1])⟩
        ⟨BitVec.ofNat 16 (be [e0, e1]), BitVec.ofNat 16 (be [f0, f1]), BitVec.ofNat 16 (be [g0, g1]),
          BitVec.ofNat 16 (be [h0, h1])⟩ := by
  simp [readLms, tapsAt, field16, fieldBE]

end Headers

/-- Settles O4: the fields are `be` of their bytes, which their widths hold whole. -/
theorem headerFieldsAreBigEndian : Obligations.HeaderFieldsAreBigEndian := by
  refine ⟨fun m0 m1 m2 m3 b0 b1 b2 b3 => ?_, fun c r0 r1 r2 n0 n1 z0 z1 => ?_⟩
  · refine ⟨_, (decode_chdr rfl).trans (congrArg _ (readChdr_eq ..)), ?_⟩
    rw [toNat_ofNat_be (by rfl)]
    simp [be_cons]
    ring
  · refine ⟨_, _, _, (decode_fhdr rfl).trans (congrArg _ (readFhdr_eq ..)), ?_, ?_, ?_⟩ <;> rw [toNat_ofNat_be (by rfl)]
    · simp [be_cons]
      ring
    · simp [be_cons]
    · simp [be_cons]

/-- Settles O5: each of the eight fields is `be` of its pair of bytes; two's complement is the spec's presumption (log
entry 16). -/
theorem predictorBlockFieldOrder : Obligations.PredictorBlockFieldOrder := by
  intro a0 a1 b0 b1 c0 c1 d0 d1 e0 e1 f0 f1 g0 g1 h0 h1
  exact ⟨_, _, (decode_lms rfl).trans (congrArg _ (readLms_eq ..)), toInt_ofNat_be_pair _ _, toInt_ofNat_be_pair _ _,
    toInt_ofNat_be_pair _ _, toInt_ofNat_be_pair _ _, toInt_ofNat_be_pair _ _, toInt_ofNat_be_pair _ _,
    toInt_ofNat_be_pair _ _, toInt_ofNat_be_pair _ _⟩

section Slices

/-- The index and the first `k` codes of a slice value, packed again, are its high bits. -/
theorem packSlice_slices {V : Nat} (hV : V < 2 ^ 64) {k : Nat} (hk : k ≤ 20) :
    packSlice (sliceSfi V) ((List.range k).map (sliceCode V)) = V / 2 ^ (60 - 3 * k) := by
  induction k with
  | zero => rw [List.range_zero, List.map_nil, packSlice, List.foldl_nil, sliceSfi_toNat hV]
  | succ k ih =>
    rw [List.range_succ, List.map_append, List.map_singleton, packSlice_snoc, ih (by omega), sliceCode_toNat]
    have hshift : 60 - 3 * k = (57 - 3 * k) + 3 := by omega
    have hnext : 60 - 3 * (k + 1) = 57 - 3 * k := by omega
    rw [hshift, hnext, pow_add, ← Nat.div_div_eq_div_mul]
    omega

/-- A slice value is the packing of its index and its twenty codes (rules R94, R98). -/
theorem packSlice_sliceCodes {V : Nat} (hV : V < 2 ^ 64) : packSlice (sliceSfi V) (sliceCodes V) = V := by
  rw [sliceCodes, packSlice_slices hV le_rfl]
  exact Nat.div_one V

theorem packSlice_lt_of_length {codes : List (BitVec 3)} (sfi : BitVec 4) (h : codes.length = 20) :
    packSlice sfi codes < 2 ^ 64 := by
  have hlt := packSlice_lt sfi codes
  rw [h] at hlt
  exact hlt

theorem sliceSfi_packSlice {codes : List (BitVec 3)} (sfi : BitVec 4) (h : codes.length = 20) :
    sliceSfi (packSlice sfi codes) = sfi := by
  have hdiv := packSlice_div sfi [] codes
  rw [List.nil_append, h] at hdiv
  apply BitVec.eq_of_toNat_eq
  rw [sliceSfi_toNat (packSlice_lt_of_length sfi h)]
  exact hdiv

/-- Dropping the codes after code `i` leaves it as the lowest field. -/
theorem sliceCode_packSlice {codes : List (BitVec 3)} (sfi : BitVec 4) (h : codes.length = 20) {i : Nat} (hi : i < 20) :
    sliceCode (packSlice sfi codes) i = codes[i] := by
  have hdiv := packSlice_div sfi (codes.take (i + 1)) (codes.drop (i + 1))
  rw [List.take_append_drop, List.length_drop, h, List.take_succ_eq_append_getElem (by omega), packSlice_snoc] at hdiv
  have hpow : 2 ^ (57 - 3 * i) = 8 ^ (20 - (i + 1)) := by
    rw [show (8 : Nat) = 2 ^ 3 by rfl, ← pow_mul]
    congr 1
    omega
  have hcode := codes[i].isLt
  apply BitVec.eq_of_toNat_eq
  rw [sliceCode_toNat, hpow, hdiv]
  omega

theorem sliceCodes_packSlice {codes : List (BitVec 3)} (sfi : BitVec 4) (h : codes.length = 20) :
    sliceCodes (packSlice sfi codes) = codes := by
  refine List.ext_getElem ((sliceCodes_length _).trans h.symm) fun i hi _ => ?_
  rw [sliceCodes_length] at hi
  simp only [sliceCodes, List.getElem_map, List.getElem_range]
  exact sliceCode_packSlice sfi h hi

end Slices

section DecodeEncode

theorem decode_encode_chdr (magic : Tag) (total : BitVec 32) :
    decode (encode (.chdr magic total)) = .ok (.chdr magic total) := by
  obtain ⟨b0, b1, b2, b3, htotal⟩ : ∃ b0 b1 b2 b3, bytesBE 4 total.toNat = [b0, b1, b2, b3] := ⟨_, _, _, _, rfl⟩
  rw [encode, htotal]
  refine (decode_chdr rfl).trans (congrArg _ ?_)
  refine (readChdr_eq ..).trans ?_
  rw [← htotal, ofNat_be_bytesBE (by rfl)]

theorem decode_encode_fhdr (channels : BitVec 8) (rate : BitVec 24) (samples size : BitVec 16) :
    decode (encode (.fhdr channels rate samples size)) = .ok (.fhdr channels rate samples size) := by
  obtain ⟨c, hc⟩ : ∃ c, bytesBE 1 channels.toNat = [c] := ⟨_, rfl⟩
  obtain ⟨r0, r1, r2, hr⟩ : ∃ r0 r1 r2, bytesBE 3 rate.toNat = [r0, r1, r2] := ⟨_, _, _, rfl⟩
  obtain ⟨n0, n1, hn⟩ : ∃ n0 n1, bytesBE 2 samples.toNat = [n0, n1] := ⟨_, _, rfl⟩
  obtain ⟨z0, z1, hz⟩ : ∃ z0 z1, bytesBE 2 size.toNat = [z0, z1] := ⟨_, _, rfl⟩
  have hchannels : c = channels := by
    have h := ofNat_be_bytesBE (n := 1) rfl channels
    rwa [hc, be_single, BitVec.ofNat_toNat, BitVec.setWidth_eq] at h
  rw [encode, hc, hr, hn, hz]
  refine (decode_fhdr rfl).trans (congrArg _ ?_)
  refine (readFhdr_eq ..).trans ?_
  rw [← hr, ← hn, ← hz, ofNat_be_bytesBE (by rfl), ofNat_be_bytesBE (by rfl), ofNat_be_bytesBE (by rfl), hchannels]

/-- A signed value's two bytes, and that they are read as the value. -/
theorem bytesOfS16_pair (v : S16) : ∃ b0 b1, bytesOfS16 v = [b0, b1] ∧ BitVec.ofNat 16 (be [b0, b1]) = v :=
  ⟨_, _, rfl, ofNat_be_bytesBE (n := 2) rfl v⟩

theorem bytesOfTaps_eight (t : Taps) : ∃ a0 a1 b0 b1 c0 c1 d0 d1, bytesOfTaps t = [a0, a1, b0, b1, c0, c1, d0, d1] ∧
    (⟨BitVec.ofNat 16 (be [a0, a1]), BitVec.ofNat 16 (be [b0, b1]), BitVec.ofNat 16 (be [c0, c1]),
      BitVec.ofNat 16 (be [d0, d1])⟩ : Taps) = t := by
  obtain ⟨a0, a1, ha, h0⟩ := bytesOfS16_pair t.t0
  obtain ⟨b0, b1, hb, h1⟩ := bytesOfS16_pair t.t1
  obtain ⟨c0, c1, hc, h2⟩ := bytesOfS16_pair t.t2
  obtain ⟨d0, d1, hd, h3⟩ := bytesOfS16_pair t.t3
  exact ⟨a0, a1, b0, b1, c0, c1, d0, d1, by rw [bytesOfTaps, ha, hb, hc, hd]; rfl, by rw [h0, h1, h2, h3]⟩

theorem decode_encode_lms (history weights : Taps) :
    decode (encode (.lms history weights)) = .ok (.lms history weights) := by
  obtain ⟨a0, a1, b0, b1, c0, c1, d0, d1, hhistory, hh⟩ := bytesOfTaps_eight history
  obtain ⟨e0, e1, f0, f1, g0, g1, h0, h1, hweights, hw⟩ := bytesOfTaps_eight weights
  rw [encode, hhistory, hweights]
  refine (decode_lms rfl).trans (congrArg _ ?_)
  refine (readLms_eq ..).trans ?_
  rw [hh, hw]

theorem decode_encode_slc (sfi : BitVec 4) {codes : List (BitVec 3)} (h : codes.length = 20) :
    decode (encode (.slc sfi codes)) = .ok (.slc sfi codes) := by
  have hbe : be (bytesBE 8 (packSlice sfi codes)) = packSlice sfi codes :=
    be_bytesBE_of_lt (packSlice_lt_of_length sfi h)
  rw [encode, decode_slc (bytesBE_length _ _), readSlc, hbe, sliceSfi_packSlice sfi h, sliceCodes_packSlice sfi h]

end DecodeEncode

/-- Settles O1: the units by their fields, a slice by its packing; the other rows are single words. -/
theorem decodeOfEncodeIsIdentity : Obligations.DecodeOfEncodeIsIdentity := by
  intro i hwf
  cases i with
  | chdr magic total => exact decode_encode_chdr magic total
  | fhdr channels rate samples size => exact decode_encode_fhdr channels rate samples size
  | lms history weights => exact decode_encode_lms history weights
  | slc sfi codes => exact decode_encode_slc sfi (beq_iff_eq.mp hwf)
  | sf0 | sf1 | sf2 | sf3 | sf4 | sf5 | sf6 | sf7 | sf8 | sf9 | sf10 | sf11 | sf12 | sf13 | sf14 | sf15 => rfl
  | q0 | q1 | q2 | q3 | q4 | q5 | q6 | q7 => rfl
  | asm => rfl
  | start => rfl

section EncodeDecode

theorem encode_readChdr {bs : List Byte} (h : bs.length = Config.CHDR_LEN) : encode (readChdr bs) = .stream .chdr bs := by
  match bs, h with
  | [m0, m1, m2, m3, b0, b1, b2, b3], _ =>
    rw [readChdr_eq, encode, bytesBE_toNat_ofNat_be (by rfl) (by rfl)]
    rfl

theorem encode_readFhdr {bs : List Byte} (h : bs.length = Config.FHDR_LEN) : encode (readFhdr bs) = .stream .fhdr bs := by
  match bs, h with
  | [c, r0, r1, r2, n0, n1, z0, z1], _ =>
    have hc : bytesBE 1 c.toNat = [c] := by
      rw [← be_single c]
      exact bytesBE_be [c]
    rw [readFhdr_eq, encode, hc, bytesBE_toNat_ofNat_be (by rfl) (by rfl), bytesBE_toNat_ofNat_be (by rfl) (by rfl),
      bytesBE_toNat_ofNat_be (by rfl) (by rfl)]
    rfl

theorem bytesOfS16_ofNat_be (b0 b1 : Byte) : bytesOfS16 (BitVec.ofNat 16 (be [b0, b1])) = [b0, b1] :=
  bytesBE_toNat_ofNat_be rfl rfl

theorem encode_readLms {bs : List Byte} (h : bs.length = Config.LMS_BYTES) : encode (readLms bs) = .stream .lms bs := by
  match bs, h with
  | [a0, a1, b0, b1, c0, c1, d0, d1, e0, e1, f0, f1, g0, g1, h0, h1], _ =>
    rw [readLms_eq, encode]
    simp only [bytesOfTaps, bytesOfS16_ofNat_be]
    rfl

theorem encode_readSlc {bs : List Byte} (h : bs.length = Config.SLC_LEN) : encode (readSlc bs) = .stream .slc bs := by
  have hlt := be_lt bs
  have hbytes := bytesBE_be bs
  rw [h] at hlt hbytes
  rw [readSlc, encode, packSlice_sliceCodes hlt, hbytes]

/-- What a stream unit is read as, by its phase. -/
theorem decode_stream_eq_ok {ph : Phase} {bs : List Byte} {i : Instr} (h : decode (.stream ph bs) = .ok i) :
    (ph = .chdr ∧ bs.length = Config.CHDR_LEN ∧ i = readChdr bs) ∨
    (ph = .fhdr ∧ bs.length = Config.FHDR_LEN ∧ i = readFhdr bs) ∨
    (ph = .lms ∧ bs.length = Config.LMS_BYTES ∧ i = readLms bs) ∨
    (ph = .slc ∧ bs.length = Config.SLC_LEN ∧ i = readSlc bs) := by
  rw [decode, decodeStream.eq_def] at h
  split at h
  case h_1 => cases h
  case h_2 n hunit =>
    split at h
    case isFalse => cases h
    case isTrue hlen => cases ph <;> cases h <;> cases hunit <;> simp [hlen]

theorem wellFormed_sfInstr (v : BitVec 4) : (sfInstr v).wellFormed = true := by
  obtain rfl | rfl | rfl | rfl | rfl | rfl | rfl | rfl | rfl | rfl | rfl | rfl | rfl | rfl | rfl | rfl := sfi_cases v <;>
    rfl

theorem wellFormed_qInstr (q : BitVec 3) : (qInstr q).wellFormed = true := by
  obtain rfl | rfl | rfl | rfl | rfl | rfl | rfl | rfl := code_cases q <;> rfl

end EncodeDecode

/-- Settles O2: by the kind of the word, and for a stream unit by its phase. -/
theorem encodeOfDecodeIsIdentity : Obligations.EncodeOfDecodeIsIdentity := by
  intro f i h
  cases f with
  | stream ph bs =>
    obtain ⟨rfl, hlen, rfl⟩ | ⟨rfl, hlen, rfl⟩ | ⟨rfl, hlen, rfl⟩ | ⟨rfl, hlen, rfl⟩ := decode_stream_eq_ok h
    · exact ⟨rfl, encode_readChdr hlen⟩
    · exact ⟨rfl, encode_readFhdr hlen⟩
    · exact ⟨rfl, encode_readLms hlen⟩
    · exact ⟨beq_iff_eq.mpr (sliceCodes_length _), encode_readSlc hlen⟩
  | field g =>
    cases g with
    | sfi v => cases h; exact ⟨wellFormed_sfInstr v, encode_sfInstr v⟩
    | code q => cases h; exact ⟨wellFormed_qInstr q, encode_qInstr q⟩
  | implicit => cases h; exact ⟨rfl, rfl⟩
  | command b =>
    simp only [decode, decodeCommand] at h
    split at h
    case isTrue hb => cases h; exact ⟨rfl, congrArg _ hb.symm⟩
    case isFalse => cases h

/-- Settles O6: closed words, read by the formats. -/
theorem writtenOutWordsDecode : Obligations.WrittenOutWordsDecode :=
  ⟨by decide, by decide, by decide, rfl, rfl, rfl, rfl⟩

end Sys2Proof
end

section
/-! Single operations and moves: the headers and the commands, the port and the reads, capacity, waiting
(rules R62, R105, R121, R124, R211 to R214, R238). -/

namespace Sys2Proof
namespace Machine

section Commands

variable {s : State} {rest : List HostEvent}

theorem exec_start_of_busy (h : s.STATUS = .busy) : exec .start s = .next s := if_pos h

/-- A write of `CMD` that is refused: a reserved value, or START while `BUSY`. -/
theorem commandStep_refused {b : Byte} (h : b ≠ 0x01 ∨ s.STATUS = .busy) : commandStep b s = .next s := by
  rw [commandStep_eq]
  split
  case isTrue hb => exact exec_start_of_busy (h.resolve_left (not_not_intro hb))
  case isFalse => rfl

end Commands

/-- Settles O11: a command is refused while `BUSY`, and a reserved one in every state. -/
theorem refusedCommandsChangeNothing : Obligations.RefusedCommandsChangeNothing :=
  ⟨fun _ => exec_start_of_busy, fun _ _ _ hhost h => (step_cons hhost).trans (commandStep_refused h)⟩

/-- Settles O12: CHDR completes by `exec_chdr_of_magic`, and `advance()` goes to the first frame's header. -/
theorem chdrLoadsTotalAndFrameCount : Obligations.ChdrLoadsTotalAndFrameCount := by
  intro total s hph hroom
  rw [exec_chdr_of_magic total hroom, advance_chdr (s := chdrLatched total s) hph]
  rfl

section FrameHeader

variable {channels : BitVec 8} {rate : BitVec 24} {samples size : BitVec 16} {s : State}

/-- FHDR completes where `POS` has room and the channel count agrees (rules R124, R238). -/
theorem exec_fhdr_of_agree (hroom : s.RoomForBytes 8) (hagree : s.FI = 0 ∨ channels = s.CHANNELS) :
    exec (.fhdr channels rate samples size) s = .next (advance (fhdrLatched channels rate samples size s)) := by
  have hfits : s.posFits Config.FHDR_LEN = true := (posFits_iff s 8).mpr hroom
  obtain ⟨-, -, hexec⟩ | ⟨-, hdiffer, -⟩ | ⟨hfull, -⟩ := execFhdr_cases channels rate samples size s
  · exact hexec
  · exact absurd hagree hdiffer
  · simp [hfits] at hfull

/-- The rate in a 32-bit register: bits 31:24 are zero (rule R32). -/
theorem zero_append_rate (rate : BitVec 24) : 0#8 ++ rate = rate.setWidth 32 := by
  have happend : (0#8 ++ rate).toNat = rate.toNat := by
    rw [BitVec.toNat_append, BitVec.toNat_ofNat, Nat.zero_mod, Nat.zero_shiftLeft, Nat.zero_or]
  apply BitVec.eq_of_toNat_eq
  rw [BitVec.toNat_setWidth_of_le (by omega)]
  exact happend

/-- What FHDR latches, written out. -/
theorem fhdrLatched_eq : fhdrLatched channels rate samples size s =
    { s with
      POS := s.POS + 8
      CHANNELS := channels
      RATE := 0#8 ++ rate
      FSAMPLES := samples
      FSIZE := size
      NSLICES := (samples.toNat + 19) / 20 } := by
  rw [zero_append_rate]
  rfl

end FrameHeader

/-- Settles O15: the latched state is the statement's `u`, and `advance()` leaves it by its channel count. -/
theorem fhdrLoadsFrameParameters : Obligations.FhdrLoadsFrameParameters := by
  intro channels rate samples size s u hph hroom hagree hu
  have hexec : exec (.fhdr channels rate samples size) s = .next (advance u) := by
    rw [exec_fhdr_of_agree hroom hagree, fhdrLatched_eq, ← hu]
  have hphase : u.PH = .fhdr := by rw [hu]; exact hph
  have hchannels : u.CHANNELS = channels := by rw [hu]
  have hframe : u.FI = s.FI := by rw [hu]
  have hcount : u.NFRAMES = s.NFRAMES := by rw [hu]
  rw [hexec]
  refine ⟨fun hne => ?_, fun hzero hnext => ?_, fun hzero hlast => ?_⟩
  · rw [advance_fhdr_of_channels hphase (hchannels ▸ hne)]
  · have hsucc : u.FI + 1 < u.NFRAMES := by rwa [hframe, hcount]
    rw [advance_eq_frameEnd (.inl ⟨hphase, hchannels.trans hzero⟩), frameEnd_next hsucc, hframe, ← hphase]
  · have hsucc : ¬ u.FI + 1 < u.NFRAMES := by rwa [hframe, hcount]
    rw [advance_eq_frameEnd (.inl ⟨hphase, hchannels.trans hzero⟩), frameEnd_last hsucc]

section Capacity

variable {s : State} {n : Nat}

theorem posFits_eq_false (h : ¬ s.RoomForBytes n) : s.posFits n = false :=
  Bool.eq_false_iff.mpr (mt (posFits_iff s n).mp h)

theorem samplesFit_eq_false (h : ¬ s.RoomForSamples n) : s.samplesFit n = false :=
  Bool.eq_false_iff.mpr (mt (samplesFit_iff s n).mp h)

theorem execChdr_of_noRoom (magic : Tag) (total : BitVec 32) (h : ¬ s.RoomForBytes 8) :
    execChdr magic total s = .next (raise .capacityExceeded s) := by
  have hfull := posFits_eq_false h
  obtain ⟨hfits, -⟩ | ⟨hfits, -⟩ | ⟨-, hexec⟩ := execChdr_cases magic total s
  · simp [hfull] at hfits
  · simp [hfull] at hfits
  · exact hexec

theorem execFhdr_of_noRoom (channels : BitVec 8) (rate : BitVec 24) (samples size : BitVec 16)
    (h : ¬ s.RoomForBytes 8) : execFhdr channels rate samples size s = .next (raise .capacityExceeded s) := by
  have hfull := posFits_eq_false h
  obtain ⟨hfits, -⟩ | ⟨hfits, -⟩ | ⟨-, hexec⟩ := execFhdr_cases channels rate samples size s
  · simp [hfull] at hfits
  · simp [hfull] at hfits
  · exact hexec

theorem execLms_of_noRoom (history weights : Taps) (h : ¬ s.RoomForBytes 16) :
    execLms history weights s = .next (raise .capacityExceeded s) := by
  have hfull := posFits_eq_false h
  obtain ⟨hfits, -⟩ | ⟨-, hexec⟩ := execLms_cases history weights s
  · simp [hfull] at hfits
  · exact hexec

/-- A slice needs room for its bytes and for its group's samples; its twenty codes are enough for any group (rule R126). -/
theorem execSlc_of_noRoom (sfi : BitVec 4) {codes : List (BitVec 3)} (hcodes : codes.length = 20)
    (h : ¬ s.RoomForBytes 8 ∨ ¬ s.RoomForSamples s.groupLen) :
    execSlc sfi codes s = .next (raise .capacityExceeded s) := by
  obtain ⟨hfits, hsamples, -⟩ | ⟨-, hexec⟩ := execSlc_cases sfi codes s
  · rw [List.length_take, hcodes, Nat.min_eq_left (groupLen_le s)] at hsamples
    obtain hbytes | hcap := h
    · simp [posFits_eq_false hbytes] at hfits
    · simp [samplesFit_eq_false hcap] at hsamples
  · exact hexec

end Capacity

/-- Settles O38: each unit checks its room first and fails with nothing consumed (log entries 11 and 12). -/
theorem capacityExceededCauses : Obligations.CapacityExceededCauses :=
  ⟨fun magic total _ h => ⟨_, execChdr_of_noRoom magic total h, raise_fails _ _⟩,
   fun channels rate samples size _ h => ⟨_, execFhdr_of_noRoom channels rate samples size h, raise_fails _ _⟩,
   fun history weights _ h => ⟨_, execLms_of_noRoom history weights h, raise_fails _ _⟩,
   fun sfi _ _ hcodes h => ⟨_, execSlc_of_noRoom sfi hcodes h, raise_fails _ _⟩⟩

section UnequalBuffers

variable {s : State} {c d : Fin NCH_MAX}

/-- ASM's check compares all buffers with one, so two that differ cannot both pass (rule R201). -/
theorem lengthsAgree_eq_false (hc : c.val < s.CHANNELS.toNat) (hd : d.val < s.CHANNELS.toNat)
    (hne : s.bufLen c ≠ s.bufLen d) : lengthsAgree s.buffers = false := by
  refine Bool.eq_false_iff.mpr fun hagree => hne ?_
  have hall := (lengthsAgree_iff _).mp hagree
  have hfst : s.bufLen c = commonLength s.buffers := hall _ (mem_buffers.mpr ⟨c, hc, rfl⟩)
  have hsnd : s.bufLen d = commonLength s.buffers := hall _ (mem_buffers.mpr ⟨d, hd, rfl⟩)
  exact hfst.trans hsnd.symm

end UnequalBuffers

/-- Settles O30: two buffers of different lengths fail ASM's check. -/
theorem asmRejectsUnequalBuffers : Obligations.AsmRejectsUnequalBuffers := by
  intro s c d hc hd hne
  have hdiffer := lengthsAgree_eq_false hc hd hne
  obtain ⟨hagree, -⟩ | ⟨-, hexec⟩ := execAsm_cases s
  · simp [hdiffer] at hagree
  · exact ⟨_, hexec, raise_fails _ _⟩

section Turns

variable {s : State} {n : Nat}

/-- A unit that is not all there, before the end of the stream, is waited for (rule R62; log entry 5). -/
theorem sequencerStep_waiting (hp : s.PEND = []) (hwf : s.IN.wf = true) (heos : s.EOS = false)
    (hu : unitLength s.PH = some n) (hleft : s.bytesLeft < n) : sequencerStep s = .next s := by
  have hbytes := unitBytes_eq_none_of_bytesLeft hwf hu hleft
  have hnot : shortRead s = false := by simp [shortRead, heos]
  simp [sequencerStep, fetch_eq_none_of_unitBytes hp hu hbytes, noFetch, hnot]

/-- Outside the busy phases the sequencer's step answers the unchanged state (rule R123; log entry 5). -/
theorem sequencerStep_of_notBusy (hp : s.PEND = []) (hph : statusOf s.PH ≠ .busy) : sequencerStep s = .next s := by
  obtain ⟨t, hstep, heffect⟩ := sequencerStep_effect s
  rw [hstep, heffect.eq_of_notBusy hp hph]

end Turns

/-- Settles O34: the unit is not fetched, and it is no short read before the end of the stream (log entry 5). -/
theorem waitingChangesNothing : Obligations.WaitingChangesNothing :=
  fun _ _ _ hturn hp hwf heos hu hleft =>
    (step_of_sequencerTurn hturn).trans (sequencerStep_waiting hp hwf heos hu hleft)

/-- Settles O35: of the outcomes of the sequencer's step only the unchanged state is left (log entry 5). -/
theorem noStepInEndedPhases : Obligations.NoStepInEndedPhases := by
  intro s rest hturn hp hph
  refine (step_of_sequencerTurn hturn).trans (sequencerStep_of_notBusy hp ?_)
  obtain hph | hph | hph := hph <;> simp [hph, statusOf]

/-- Settles O42: a read's move, by which of the three it is, records a reply and a draw at most (log entry 13 for `CMD`). -/
theorem readsHaveNoSideEffect : Obligations.ReadsHaveNoSideEffect := by
  refine ⟨fun s rest hhost => step_cons hhost, fun s t rest e he hhost h => ?_⟩
  rw [step_cons hhost] at h
  obtain ⟨r, rfl⟩ | ⟨k, rfl⟩ | ⟨k, upper, rfl⟩ := he
  · obtain ⟨replies, draws, rfl⟩ := readReg_record h
    rfl
  · obtain ⟨replies, draws, hrecord⟩ := readPcm_record k { s with HOST := rest }
    cases h
    rw [hrecord]
  · obtain ⟨replies, draws, hrecord⟩ := readPcmByte_record k upper { s with HOST := rest }
    cases h
    rw [hrecord]

section Offers

variable {m : Memory}

/-- What was offered before stays where it was (rule R214). -/
theorem read_offer_of_lt (hwf : m.wf = true) (bs : List Byte) {a : Nat} (ha : a < m.length) :
    (m.offer bs).read a = m.read a := by
  obtain ⟨l, happend, -⟩ := m.offer_prefix bs
  rw [Memory.read_eq (Memory.wf_offer hwf bs), Memory.read_eq hwf, happend, List.getElem?_append_left ha]

/-- Offered bytes stand in order from the next offset on (rule R214). -/
theorem read_offer_next (hwf : m.wf = true) (bs : List Byte) (k : Nat) : (m.offer bs).read (m.length + k) = bs[k]? := by
  obtain ⟨l, happend, hbytes⟩ := m.offer_prefix bs
  rw [Memory.read_eq (Memory.wf_offer hwf bs), happend, List.getElem?_append_right (Nat.le_add_right _ _),
    Nat.add_sub_cancel_left, ← List.getElem?_map, hbytes]

/-- The step in which the host offers bytes before the end of the stream. -/
theorem step_offer {s : State} {rest : List HostEvent} {bs : List Byte} (hhost : s.HOST = .offer bs :: rest)
    (heos : s.EOS = false) : step s = .next { s with HOST := rest, IN := s.IN.offer bs } := by
  rw [step_cons hhost]
  simp [hostStep, offerBytes, heos]

end Offers

/-- Settles O43: the new stream is `Memory.offer`'s (log entry 3). -/
theorem offeredBytesTakeTheNextOffsets : Obligations.OfferedBytesTakeTheNextOffsets :=
  fun s _ bs hhost heos hwf => ⟨s.IN.offer bs, step_offer hhost heos, Memory.wf_offer hwf bs,
    fun _ => read_offer_of_lt hwf bs, read_offer_next hwf bs⟩

section FieldByField

variable {s : State}

/-- A pending field's step (log entry 10). -/
theorem sequencerStep_field {f : SubField} {fs : List SubField} (hp : s.PEND = f :: fs) :
    sequencerStep s = .next (afterField (fieldEffect f { s with PEND := fs })) := by
  obtain ⟨i, hi⟩ := fetch_decodes (fetch_of_pending hp)
  exact sequencerStep_pending hp hi (exec_field hi _)

/-- With the host idle, pending fields run one a step, and the slice ends with the last of them. -/
theorem run_pending (f : SubField) (fs : List SubField) {s : State} (hhost : s.HOST = []) (hp : s.PEND = f :: fs) :
    Host.Core.run Sys2Proof.core (fs.length + 1) s =
      .next (endSlice ((f :: fs).foldl (fun t g => fieldEffect g t) { s with PEND := [] })) := by
  induction fs generalizing f s with
  | nil =>
    have hstep : step s = .next (endSlice (fieldEffect f { s with PEND := [] })) := by
      rw [step_nil hhost, sequencerStep_field hp, afterField, if_pos (fieldEffect_PEND f _)]
    exact run_succ hstep 0
  | cons g gs ih =>
    have hstep : step s = .next (fieldEffect f { s with PEND := g :: gs }) := by
      rw [step_nil hhost, sequencerStep_field hp, afterField, if_neg (by simp)]
    have hsettled : ({ fieldEffect f { s with PEND := g :: gs } with PEND := [] } : State) =
        fieldEffect f { s with PEND := [] } := (fieldEffect_withPEND f { s with PEND := g :: gs } []).symm
    have hrun := ih g (s := fieldEffect f { s with PEND := g :: gs }) (by simpa using hhost) (by simp)
    rw [hsettled] at hrun
    exact (run_succ hstep _).trans hrun

end FieldByField

/-- Settles O21: the single steps fold the fields' effects, and so does the atomic step (log entry 10). -/
theorem sliceStepIsItsFieldsInOrder : Obligations.SliceStepIsItsFieldsInOrder := by
  intro sfi codes s hhost hp hbytes hsamples
  have hsettled : ({ s with POS := s.POS + 8, PEND := [] } : State) = s.consume Config.SLC_LEN := by
    rw [State.consume, ← hp]
  have hrun := run_pending (.sfi sfi) ((codes.take s.groupLen).map .code)
    (s := { s with POS := s.POS + 8, PEND := .sfi sfi :: (codes.take s.groupLen).map .code }) hhost rfl
  rw [List.length_map] at hrun
  rw [hrun, exec_slc_of_room sfi hbytes hsamples, hsettled, List.foldl_cons, List.foldl_map]
  rfl

end Machine
end Sys2Proof
end

section
/-! The ranges of the datapath, and what clear flags and the all-zero predictor mean (rules R182, R185, R189). -/

namespace Sys2Proof
namespace Machine

section Ranges

/-- The values of a signed 16-bit register (rule R10). -/
theorem toInt_range (a : S16) : -32768 ≤ a.toInt ∧ a.toInt ≤ 32767 := by
  have hlow := BitVec.le_toInt a
  have hhigh := BitVec.toInt_lt (x := a)
  norm_num at hlow hhigh
  omega

/-- One product of the prediction sum: the extremes stand at the corners of the two ranges. -/
theorem product_range (a b : S16) : -1073709056 ≤ a.toInt * b.toInt ∧ a.toInt * b.toInt ≤ 1073741824 := by
  obtain ⟨ha, ha'⟩ := toInt_range a
  obtain ⟨hb, hb'⟩ := toInt_range b
  constructor <;> nlinarith

theorem predSum_range (h w : Taps) : -4294836224 ≤ predSum h w ∧ predSum h w ≤ 4294967296 := by
  have h0 := product_range h.t0 w.t0
  have h1 := product_range h.t1 w.t1
  have h2 := product_range h.t2 w.t2
  have h3 := product_range h.t3 w.t3
  unfold predSum
  omega

theorem predict_range (h w : Taps) : -524272 ≤ predict h w ∧ predict h w ≤ 524288 := by
  have hsum := predSum_range h w
  have hshift : predict h w = predSum h w / 8192 := rfl
  omega

/-- The contributions over the two ROMs (rules R166, R168). -/
theorem resid_range (sfi : BitVec 4) (q : BitVec 3) :
    -14336 ≤ resid (sfRom sfi) q ∧ resid (sfRom sfi) q ≤ 14336 ∧ resid (sfRom sfi) q ≠ 0 := by
  revert sfi q
  decide

theorem recon_range (p r : Int) : -32768 ≤ recon p r ∧ recon p r ≤ 32767 := by
  have hclamp : recon p r = max (-32768) (min 32767 (p + r)) := clamp_eq (by decide) _
  omega

theorem delta_range {r : Int} (hlow : -14336 ≤ r) (hhigh : r ≤ 14336) : -896 ≤ delta r ∧ delta r ≤ 896 := by
  have hshift : delta r = r / 16 := rfl
  omega

theorem weightSum_range (a b : S16) {d : Int} (hlow : -896 ≤ d) (hhigh : d ≤ 896) :
    -33664 ≤ weightSum a b d ∧ weightSum a b d ≤ 33663 := by
  obtain ⟨hb, hb'⟩ := toInt_range b
  unfold weightSum
  split <;> omega

end Ranges

/-- Settles O26: stage by stage from the registers' ranges and the ROMs. -/
theorem datapathRanges : Obligations.DatapathRanges := by
  rintro h w sfi q r rfl
  obtain ⟨hsum, hsum'⟩ := predSum_range h w
  obtain ⟨hp, hp'⟩ := predict_range h w
  obtain ⟨hr, hr', hne⟩ := resid_range sfi q
  obtain ⟨hx, hx'⟩ := recon_range (predict h w) (resid (sfRom sfi) q)
  obtain ⟨hd, hd'⟩ := delta_range hr hr'
  exact ⟨toInt_range, hx, hx', product_range, hsum, hsum', hp, hp', hr, hr', hne, by omega, by omega, hd, hd',
    fun a b => weightSum_range a b hd hd'⟩

section ClearFlags

/-- Without a prediction overflow the sum is its 32-bit image (rule R182). -/
theorem eq_toInt_of_not_povfEvent {acc : Int} (h : povfEvent acc = false) : acc = (BitVec.ofInt 32 acc).toInt := by
  have hfits := mt (povfEvent_iff acc).mpr (Bool.eq_false_iff.mp h)
  push Not at hfits
  rw [BitVec.toInt_ofInt]
  exact (Int.bmod_eq_of_le (by omega) (by omega)).symm

/-- A value that fits 16 bits is stored exactly (rule R185). -/
theorem toInt_wrap16_of_range {u : Int} (hlow : -32768 ≤ u) (hhigh : u ≤ 32767) : (wrap16 u).toInt = u := by
  rw [wrap16, BitVec.toInt_ofInt]
  exact Int.bmod_eq_of_le (by omega) (by omega)

theorem toInt_wrap16_weight {h w : S16} {r : Int} (hin : weightLeaves (weightSum h w (delta r)) = false) :
    (wrap16 (weightSum h w (delta r))).toInt = exactWeight h w r := by
  have hfits := mt (weightLeaves_iff _).mpr (Bool.eq_false_iff.mp hin)
  push Not at hfits
  rw [toInt_wrap16_of_range hfits.1 hfits.2, weightSum_delta]

/-- No update leaves its width exactly when none of the four does. -/
theorem wovfEvent_eq_false {h w : Taps} {d : Int} (hclear : wovfEvent h w d = false) :
    weightLeaves (weightSum h.t0 w.t0 d) = false ∧ weightLeaves (weightSum h.t1 w.t1 d) = false ∧
    weightLeaves (weightSum h.t2 w.t2 d) = false ∧ weightLeaves (weightSum h.t3 w.t3 d) = false := by
  simpa [wovfEvent, and_assoc] using hclear

@[simp] theorem sampleStep_POVF (q : BitVec 3) (s : State) :
    (sampleStep q s).POVF = (s.POVF || povfEvent (predSum s.H[s.CI] s.W[s.CI])) := rfl

@[simp] theorem sampleStep_WOVF (q : BitVec 3) (s : State) :
    (sampleStep q s).WOVF = (s.WOVF || wovfEvent s.H[s.CI] s.W[s.CI] (delta (resid s.SF q))) := rfl

/-- The weights a SAMPLE sub-step leaves in channel `CI` (rule R185). -/
theorem sampleStep_W_CI (q : BitVec 3) (s : State) :
    (sampleStep q s).W[s.CI] = updateWeights s.H[s.CI] s.W[s.CI] (delta (resid s.SF q)) := by
  simp [sampleStep_eq]

/-- The history a SAMPLE sub-step leaves in channel `CI` (rule R186). -/
theorem sampleStep_H_CI (q : BitVec 3) (s : State) :
    (sampleStep q s).H[s.CI] = shiftHistory s.H[s.CI] (sampleOf s.H[s.CI] s.W[s.CI] (resid s.SF q)) := by
  simp [sampleStep_eq, sampleOf]

theorem sampleStep_CHBUF_CI (q : BitVec 3) (s : State) :
    (sampleStep q s).CHBUF[s.CI] = s.CHBUF[s.CI] ++ [sampleOf s.H[s.CI] s.W[s.CI] (resid s.SF q)] := by
  simp [sampleStep_eq, sampleOf]

end ClearFlags

/-- Settles O27: a flag clear after the code had no event in it, the flags being sticky. -/
theorem clearFlagsMeanExactArithmetic : Obligations.ClearFlagsMeanExactArithmetic := by
  intro q s t h
  cases (exec_qInstr q s).symm.trans h
  refine ⟨fun hpovf => ?_, fun hwovf => ?_⟩
  · rw [sampleStep_POVF, Bool.or_eq_false_iff] at hpovf
    exact eq_toInt_of_not_povfEvent hpovf.2
  · rw [sampleStep_WOVF, Bool.or_eq_false_iff] at hwovf
    obtain ⟨h0, h1, h2, h3⟩ := wovfEvent_eq_false hwovf.2
    rw [sampleStep_W_CI]
    exact ⟨toInt_wrap16_weight h0, toInt_wrap16_weight h1, toInt_wrap16_weight h2, toInt_wrap16_weight h3⟩

section ZeroPredictor

/-- The all-zero registers of a channel. -/
def zeroTaps : Taps := ⟨0, 0, 0, 0⟩

theorem predSum_zero : predSum zeroTaps zeroTaps = 0 := by decide

/-- From the all-zero registers the sample is the contribution (rules R181, R183). -/
theorem toInt_sampleOf_zero {r : Int} (hlow : -14336 ≤ r) (hhigh : r ≤ 14336) :
    (sampleOf zeroTaps zeroTaps r).toInt = r := by
  have hpredict : predict zeroTaps zeroTaps = 0 := by decide
  rw [sampleOf, toInt_wrap16_recon, hpredict]
  omega

/-- From the all-zero registers each weight becomes the step itself, a zero history entry counting as non-negative
(rule R185). -/
theorem weightSum_zero (d : Int) : weightSum 0 0 d = d := by
  simp [weightSum]

theorem updateWeights_zero (d : Int) : updateWeights zeroTaps zeroTaps d = ⟨wrap16 d, wrap16 d, wrap16 d, wrap16 d⟩ := by
  simp only [updateWeights, zeroTaps, weightSum_zero]

theorem wovfEvent_zero {d : Int} (hlow : -896 ≤ d) (hhigh : d ≤ 896) : wovfEvent zeroTaps zeroTaps d = false := by
  have hin : weightLeaves d = false := by
    rw [Bool.eq_false_iff, Ne, weightLeaves_iff]
    omega
  simp only [wovfEvent, zeroTaps, weightSum_zero, hin, Bool.or_false]

end ZeroPredictor

/-- Settles O28: the sub-step's registers, evaluated at the all-zero predictor. -/
theorem zeroPredictorReturnsTheResidual : Obligations.ZeroPredictorReturnsTheResidual := by
  intro sfi q s t hsf hH hW h
  cases (exec_qInstr q s).symm.trans h
  have hH' : s.H[s.CI] = zeroTaps := hH
  have hW' : s.W[s.CI] = zeroTaps := hW
  obtain ⟨hr, hr', -⟩ := resid_range sfi q
  rw [← hsf] at hr hr'
  obtain ⟨hd, hd'⟩ := delta_range hr hr'
  refine ⟨sampleOf zeroTaps zeroTaps (resid s.SF q), wrap16 (delta (resid s.SF q)), toInt_sampleOf_zero hr hr',
    toInt_wrap16_of_range (by omega) (by omega), ?_, ?_, ?_, ?_, ?_⟩
  · rw [sampleStep_CHBUF_CI, hH', hW']
  · rw [sampleStep_H_CI, hH', hW']; rfl
  · rw [sampleStep_W_CI, hH', hW', updateWeights_zero]
  · rw [sampleStep_POVF, hH', hW', predSum_zero, povfEvent]; simp
  · rw [sampleStep_WOVF, hH', hW', wovfEvent_zero hd hd', Bool.or_false]

end Machine
end Sys2Proof
end

section
/-! Progress: once the stream has ended, every step of a busy decode consumes a unit or ends the decode (rule R262). -/

namespace Sys2Proof
namespace Machine

section Ended

variable {s : State}

/-- Nothing is left to do: no move of the host, no field, no enabled step. -/
structure State.Settled (s : State) : Prop where
  host : s.HOST = []
  fields : s.PEND = []
  notBusy : statusOf s.PH ≠ .busy

/-- A settled state stays as it is for any number of steps. -/
theorem State.Settled.run (h : s.Settled) (k : Nat) : Host.Core.run Sys2Proof.core k s = .next s := by
  have hstep : step s = .next s := (step_nil h.host).trans (sequencerStep_of_notBusy h.fields h.notBusy)
  induction k with
  | zero => rfl
  | succ k ih => exact (run_succ hstep k).trans ih

theorem raise_settled (x : ErrCode) (hhost : s.HOST = []) : (raise x s).Settled :=
  ⟨hhost, rfl, by simp [statusOf]⟩

theorem assembled_settled (hhost : s.HOST = []) (hp : s.PEND = []) : (assembled s).Settled :=
  ⟨hhost, hp, by simp [assembled, statusOf]⟩

end Ended

section Progress

variable {s t : State}

theorem eight_le_unitLength {ph : Phase} {n : Nat} (h : unitLength ph = some n) : 8 ≤ n := by
  cases ph <;> cases h <;> decide

/-- A unit that is there lies within the stream (rule R61). -/
theorem AtUnit.fits {ph : Phase} (h : AtUnit ph s) (hwf : s.IN.wf = true) {n : Nat} (hu : unitLength ph = some n) :
    s.POS + n ≤ s.IN.length := by
  have hunit := h.unit
  rw [unitBytes, h.phase, hu, Option.bind_some] at hunit
  exact (Memory.readRange_isSome hwf s.POS n (by have := eight_le_unitLength hu; omega)).mp hunit

/-- The sequencer never goes back to the container header (rule R123). -/
theorem advance_PH_ne_chdr (hbusy : statusOf s.PH = .busy) (hne : s.PH ≠ .asm) : (advance s).PH ≠ .chdr := by
  have hend : (frameEnd s).PH ≠ .chdr := by
    obtain ⟨-, h⟩ | ⟨-, h⟩ := frameEnd_cases s <;> rw [h] <;> exact Phase.noConfusion
  cases hph : s.PH with
  | chdr => rw [advance_chdr hph]; exact Phase.noConfusion
  | fhdr => rw [advance_fhdr hph]; split; exacts [hend, Phase.noConfusion]
  | lms => rw [advance_lms hph]; split_ifs; exacts [by simp [hph], hend, Phase.noConfusion]
  | slc => rw [advance_slc hph]; split_ifs; exacts [by simp [hph], by simp [hph], hend]
  | asm => exact absurd hph hne
  | idle | done | failed => rw [hph] at hbusy; cases hbusy

/-- What a completed unit leaves: a later busy phase, and `POS` past the unit, within the stream. -/
structure UnitDone (s t : State) : Prop where
  busy : statusOf t.PH = .busy
  later : t.PH ≠ .chdr
  consumed : ∃ n, unitLength s.PH = some n ∧ s.POS + n ≤ s.IN.length ∧ t.POS = s.POS + n

theorem UnitDone.of_advance {u : State} {ph : Phase} {n : Nat} (hunit : AtUnit ph s) (hwf : s.IN.wf = true)
    (hu : unitLength ph = some n) (hph : u.PH = ph) (hpos : u.POS = s.POS + n) : UnitDone s (advance u) := by
  have hne : ph ≠ .asm := by rintro rfl; cases hu
  have hbusy : statusOf ph = .busy := (unitLength_isSome_iff hne).mp (hu ▸ rfl)
  subst hph
  exact ⟨statusOf_advance hbusy hne, advance_PH_ne_chdr hbusy hne, n, hunit.phase ▸ hu, hunit.fits hwf hu,
    (advance_POS u).trans hpos⟩

/-- A step from a busy phase of an ended stream publishes, fails or completes a unit. -/
theorem SequencerEffect.progress (h : SequencerEffect s t) (hp : s.PEND = []) (hwf : s.IN.wf = true)
    (heos : s.EOS = true) (hbusy : statusOf s.PH = .busy) :
    (s.PH = .asm ∧ t = assembled s) ∨ (∃ x n, t = raise x (s.consume n)) ∨ UnitDone s t := by
  cases h with
  | field hpend => cases hp.symm.trans hpend
  | chdr total hunit => exact .inr (.inr (.of_advance hunit hwf rfl hunit.phase rfl))
  | fhdr _ _ _ _ hunit => exact .inr (.inr (.of_advance hunit hwf rfl hunit.phase rfl))
  | lms _ _ hunit => exact .inr (.inr (.of_advance hunit hwf rfl hunit.phase rfl))
  | slc sfi codes hunit =>
    have hph : (afterFields sfi codes s).PH = .slc := (afterFields_PH sfi codes s).trans hunit.phase
    exact .inr (.inr (.of_advance hunit hwf rfl hph (afterFields_POS sfi codes s)))
  | asm _ hph => exact .inl ⟨hph, rfl⟩
  | fails x n => exact .inr (.inl ⟨x, n, rfl⟩)
  | waits _ hwait => cases heos.symm.trans (hwait hbusy)

/-- The same as a step of the machine with the host's script at its end. -/
theorem step_progress (hhost : s.HOST = []) (hp : s.PEND = []) (hwf : s.IN.wf = true) (heos : s.EOS = true)
    (hbusy : statusOf s.PH = .busy) : ∃ t, step s = .next t ∧ SequencerEffect s t ∧
      ((s.PH = .asm ∧ t = assembled s) ∨ (∃ x n, t = raise x (s.consume n)) ∨ UnitDone s t) := by
  obtain ⟨t, hstep, heffect⟩ := sequencerStep_effect s
  exact ⟨t, (step_nil hhost).trans hstep, heffect, heffect.progress hp hwf heos hbusy⟩

/-- Each step leaves eight bytes fewer or ends the decode, so `k` steps are enough for fewer than `8 * k` bytes. -/
theorem run_ends (k : Nat) {s : State} (hhost : s.HOST = []) (hp : s.PEND = []) (hwf : s.IN.wf = true)
    (heos : s.EOS = true) (hbusy : statusOf s.PH = .busy) (hk : s.bytesLeft < 8 * k) :
    ∃ t, Host.Core.run Sys2Proof.core k s = .next t ∧ (t.PH = .done ∨ t.PH = .failed) := by
  induction k generalizing s with
  | zero => omega
  | succ k ih =>
    obtain ⟨t, hstep, heffect, ⟨-, rfl⟩ | ⟨x, n, rfl⟩ | hdone⟩ := step_progress hhost hp hwf heos hbusy
    · exact ⟨_, (run_succ hstep k).trans ((assembled_settled hhost hp).run k), .inl rfl⟩
    · exact ⟨_, (run_succ hstep k).trans ((raise_settled (s := s.consume n) x hhost).run k), .inr rfl⟩
    · obtain ⟨-, hin, heos', hhost'⟩ := heffect.inputs
      obtain ⟨n, hu, hfits, hpos⟩ := hdone.consumed
      have hlen := eight_le_unitLength hu
      have hleft : t.bytesLeft < 8 * k := by
        unfold State.bytesLeft at hk ⊢
        rw [hin, hpos]
        omega
      obtain ⟨t', hrun, hend⟩ :=
        ih (hhost'.trans hhost) (heffect.settled hp) (hin ▸ hwf) (heos'.trans heos) hdone.busy hleft
      exact ⟨t', (run_succ hstep k).trans hrun, hend⟩

end Progress

/-- Settles O49: every unit has at least eight bytes. -/
theorem endedStreamEndsTheDecode : Obligations.EndedStreamEndsTheDecode :=
  fun s hhost hp hwf heos hbusy => run_ends (s.bytesLeft / 8 + 1) hhost hp hwf heos hbusy (by omega)

end Machine
end Sys2Proof
end

section
/-! Two decodes side by side: as long as they are given the same bytes they answer alike, whatever their states held before
START (rules R43, R101, R216, R222, R223, R261). -/

namespace Sys2Proof
namespace Machine

open Host (Outcome)

section Control

/-- The state with the registers a decode loads from its stream, the stream itself and the model's bookkeeping blanked: what
START fixes. -/
def State.control (s : State) : State :=
  { State.reset with
    PH := s.PH, FI := s.FI, SI := s.SI, CI := s.CI, POS := s.POS, STATUS := s.STATUS, ERR := s.ERR, POVF := s.POVF,
    WOVF := s.WOVF, OUTLEN := s.OUTLEN, CHBUF := s.CHBUF, PCM := s.PCM, EOS := s.EOS, CFG := s.CFG, PEND := s.PEND,
    HOST := s.HOST }

/-- The control state with the counts `advance()` looks at (rule R123). -/
def State.counted (s : State) : State :=
  { s.control with CHANNELS := s.CHANNELS, NFRAMES := s.NFRAMES, NSLICES := s.NSLICES }

theorem control_frameEnd (s : State) : (frameEnd s).control = (frameEnd s.counted).control := by
  obtain ⟨hnext, h⟩ | ⟨hlast, h⟩ := frameEnd_cases s
  · rw [h, frameEnd_next (s := s.counted) hnext]; rfl
  · rw [h, frameEnd_last (s := s.counted) hlast]; rfl

/-- `advance()` looks at the control state and the counts alone: both sides take the same arm. -/
theorem control_advance (s : State) : (advance s).control = (advance s.counted).control := by
  have hphase : s.counted.PH = s.PH := rfl
  have hend := control_frameEnd s
  cases hph : s.PH with
  | chdr => rw [advance_chdr hph, advance_chdr (hphase.trans hph)]; rfl
  | fhdr =>
    by_cases hch : s.CHANNELS = 0
    · rw [advance_eq_frameEnd (.inl ⟨hph, hch⟩), advance_eq_frameEnd (s := s.counted) (.inl ⟨hph, hch⟩), hend]
    · rw [advance_fhdr_of_channels hph hch, advance_fhdr_of_channels (s := s.counted) hph hch]; rfl
  | lms =>
    by_cases hci : s.CI.val + 1 < s.CHANNELS.toNat
    · rw [advance_nextChannel (.inl hph) hci, advance_nextChannel (s := s.counted) (.inl hph) hci]; rfl
    by_cases hns : s.NSLICES = 0
    · rw [advance_eq_frameEnd (.inr (.inl ⟨hph, hci, hns⟩)),
        advance_eq_frameEnd (s := s.counted) (.inr (.inl ⟨hph, hci, hns⟩)), hend]
    · rw [advance_lms_last hph hci hns, advance_lms_last (s := s.counted) hph hci hns]; rfl
  | slc =>
    by_cases hci : s.CI.val + 1 < s.CHANNELS.toNat
    · rw [advance_nextChannel (.inr hph) hci, advance_nextChannel (s := s.counted) (.inr hph) hci]; rfl
    by_cases hsi : s.SI + 1 < s.NSLICES
    · rw [advance_slc_last hph hci hsi, advance_slc_last (s := s.counted) hph hci hsi]; rfl
    · rw [advance_eq_frameEnd (.inr (.inr ⟨hph, hci, hsi⟩)),
        advance_eq_frameEnd (s := s.counted) (.inr (.inr ⟨hph, hci, hsi⟩)), hend]
  | asm => rw [advance_asm hph, advance_asm (hphase.trans hph)]; rfl
  | idle | done | failed => rw [advance_of_notBusy (by simp [hph]), advance_of_notBusy (by simp [hphase, hph])]; rfl

variable {s t : State}

theorem control_advance_congr (hcontrol : s.control = t.control) (hchannels : s.CHANNELS = t.CHANNELS)
    (hnframes : s.NFRAMES = t.NFRAMES) (hnslices : s.NSLICES = t.NSLICES) :
    (advance s).control = (advance t).control := by
  have hcounted : s.counted = t.counted := by
    rw [State.counted, hcontrol, hchannels, hnframes, hnslices, State.counted]
  rw [control_advance s, control_advance t, hcounted]

theorem control_consume (s : State) (n : Nat) : (s.consume n).control = s.control.consume n := rfl

end Control

section Relation

/-- The channels whose registers the current frame has loaded (rule R43). -/
def State.Loaded (s : State) (c : Fin NCH_MAX) : Prop :=
  (s.PH = .lms ∧ c < s.CI) ∨ (s.PH = .slc ∧ c.val < s.CHANNELS.toNat)

/-- What a frame header loads, `FSIZE` aside, which no step reads. -/
structure SameFrame (s t : State) : Prop where
  channels : s.CHANNELS = t.CHANNELS
  rate : s.RATE = t.RATE
  samples : s.FSAMPLES = t.FSAMPLES
  groups : s.NSLICES = t.NSLICES

/-- Two decodes at the same point of the same bytes: they share the control state, and of the registers a decode loads
those that it has loaded so far. -/
structure Agree (s t : State) : Prop where
  control : s.control = t.control
  host : s.HOST = []
  fields : s.PEND = []
  status : s.STATUS = .busy
  busy : statusOf s.PH = .busy
  header : s.PH ≠ .chdr → s.TOTAL = t.TOTAL ∧ s.NFRAMES = t.NFRAMES
  frame : s.PH ≠ .chdr → (s.PH = .fhdr → s.FI ≠ 0) → SameFrame s t
  registers : ∀ c : Fin NCH_MAX, s.Loaded c → s.H[c] = t.H[c] ∧ s.W[c] = t.W[c]

/-- Two decodes that have ended with the same result. -/
structure EndedAlike (s t : State) : Prop where
  left : s.Settled
  right : t.Settled
  result : s.result = t.result

/-- Two decodes that run in step or have ended alike. -/
def Alike (s t : State) : Prop := Agree s t ∨ EndedAlike s t

/-- Both outcomes are states, and these are alike. -/
def OutcomesAlike (o o' : Outcome State Fault Refusal) : Prop :=
  ∃ s t, o = .next s ∧ o' = .next t ∧ Alike s t

variable {s t : State}

/-- What is read off the control state is shared. -/
theorem Agree.get {α : Type} (h : Agree s t) (f : State → α) : f s.control = f t.control := congrArg f h.control

theorem Agree.result (h : Agree s t) : s.result = .running ∧ t.result = .running := by
  have hstatus : t.STATUS = .busy := (h.get State.STATUS).symm.trans h.status
  simp only [State.result, h.status, hstatus, and_self]

theorem Alike.result_eq (h : Alike s t) : s.result = t.result := by
  obtain hagree | hended := h
  · rw [hagree.result.1, hagree.result.2]
  · exact hended.result

/-- Failure entry shows nothing but its code and the flags (rules R228, R261). -/
theorem raise_endedAlike (x : ErrCode) (hhost : s.HOST = []) (hhost' : t.HOST = [])
    (hflags : s.POVF = t.POVF ∧ s.WOVF = t.WOVF) : EndedAlike (raise x s) (raise x t) where
  left := raise_settled x hhost
  right := raise_settled x hhost'
  result := by simp [State.result, hflags]

theorem Agree.host_right (h : Agree s t) : t.HOST = [] := (h.get State.HOST).symm.trans h.host

theorem Agree.fields_right (h : Agree s t) : t.PEND = [] := (h.get State.PEND).symm.trans h.fields

theorem Agree.phase (h : Agree s t) : s.PH = t.PH := h.get State.PH

theorem Agree.flags (h : Agree s t) : s.POVF = t.POVF ∧ s.WOVF = t.WOVF :=
  ⟨h.get State.POVF, h.get State.WOVF⟩

theorem Agree.posFits (h : Agree s t) (n : Nat) : s.posFits n = t.posFits n := h.get (State.posFits · n)

/-- Two decodes that fail by the same code, with as many bytes consumed. -/
theorem Agree.raise (h : Agree s t) (x : ErrCode) (n : Nat) :
    OutcomesAlike (.next (raise x (s.consume n))) (.next (raise x (t.consume n))) :=
  ⟨_, _, rfl, rfl, .inr (raise_endedAlike x h.host h.host_right h.flags)⟩

end Relation

section Units

variable {s t : State}

/-- The registers loaded after `advance()` were loaded before it, channel `CI`'s by the unit just executed. -/
theorem loaded_of_advance (hbusy : statusOf s.PH = .busy) (hne : s.PH ≠ .asm) {c : Fin NCH_MAX}
    (h : (advance s).Loaded c) : (s.PH = .lms ∧ c ≤ s.CI) ∨ (s.PH = .slc ∧ c.val < s.CHANNELS.toNat) := by
  have hend : ¬ (frameEnd s).Loaded c := by
    obtain ⟨-, hframe⟩ | ⟨-, hframe⟩ := frameEnd_cases s <;> rw [hframe] <;> simp [State.Loaded]
  cases hph : s.PH with
  | chdr => rw [advance_chdr hph] at h; simp [State.Loaded] at h
  | fhdr =>
    rw [advance_fhdr hph] at h
    split at h
    · exact absurd h hend
    · simp [State.Loaded] at h
  | lms =>
    rw [advance_lms hph] at h
    refine .inl ⟨rfl, ?_⟩
    split_ifs at h with hnext
    · have hlt : c < nextChannel s hnext := by simpa [State.Loaded, hph] using h
      exact Fin.le_def.mpr (Nat.lt_succ_iff.mp hlt)
    · exact absurd h hend
    · have hlt : c.val < s.CHANNELS.toNat := by simpa [State.Loaded] using h
      exact Fin.le_def.mpr (by omega)
  | slc =>
    rw [advance_slc hph] at h
    refine .inr ⟨rfl, ?_⟩
    split_ifs at h
    · simpa [State.Loaded, hph] using h
    · simpa [State.Loaded, hph] using h
    · exact absurd h hend
  | asm => exact absurd hph hne
  | idle | done | failed => rw [hph] at hbusy; cases hbusy

/-- Two decodes that share all counts and the registers loaded so far, channel `CI`'s included, still agree after
`advance()`. -/
theorem agree_advance (hcontrol : s.control = t.control) (hhost : s.HOST = []) (hp : s.PEND = [])
    (hstatus : s.STATUS = .busy) (hbusy : statusOf s.PH = .busy) (hne : s.PH ≠ .asm)
    (hheader : s.TOTAL = t.TOTAL ∧ s.NFRAMES = t.NFRAMES)
    (hframe : SameFrame s t)
    (hregs : ∀ c : Fin NCH_MAX, (s.PH = .lms ∧ c ≤ s.CI) ∨ (s.PH = .slc ∧ c.val < s.CHANNELS.toNat) →
      s.H[c] = t.H[c] ∧ s.W[c] = t.W[c]) : Agree (advance s) (advance t) where
  control := control_advance_congr hcontrol hframe.channels hheader.2 hframe.groups
  host := by simpa using hhost
  fields := by simpa using hp
  status := by simpa using hstatus
  busy := statusOf_advance hbusy hne
  header _ := by simpa using hheader
  frame _ _ := by constructor <;> simp [hframe.channels, hframe.rate, hframe.samples, hframe.groups]
  registers c hc := by simpa using hregs c (loaded_of_advance hbusy hne hc)

/-- CHDR loads the counts from the stream; the frame's registers are still to be loaded. -/
theorem execChdr_alike (h : Agree s t) (hph : s.PH = .chdr) (magic : Tag) (total : BitVec 32) :
    OutcomesAlike (execChdr magic total s) (execChdr magic total t) := by
  have hmagic : s.CFG.MAGIC = t.CFG.MAGIC := h.get (State.CFG · |>.MAGIC)
  unfold execChdr
  rw [← h.posFits, ← hmagic]
  split_ifs
  · refine ⟨_, _, rfl, rfl, .inl ?_⟩
    rw [advance_chdr (by exact hph), advance_chdr (by exact h.phase ▸ hph)]
    have hconsumed : (s.consume Config.CHDR_LEN).control = (t.consume Config.CHDR_LEN).control := by
      rw [control_consume, h.control, control_consume]
    exact {
      control := congrArg (fun c : State => { c with FI := 0, PH := .fhdr }) hconsumed
      host := h.host
      fields := h.fields
      status := h.status
      busy := rfl
      header := fun _ => ⟨rfl, rfl⟩
      frame := fun _ hlater => absurd rfl (hlater rfl)
      registers := fun c hc => by simp [State.Loaded] at hc }
  · exact h.raise _ _
  · exact h.raise _ 0

/-- FHDR loads the frame's registers; of a frame after the first the channel count was loaded before. -/
theorem execFhdr_alike (h : Agree s t) (hph : s.PH = .fhdr) (channels : BitVec 8) (rate : BitVec 24)
    (samples size : BitVec 16) :
    OutcomesAlike (execFhdr channels rate samples size s) (execFhdr channels rate samples size t) := by
  have hne : s.PH ≠ .chdr := by rw [hph]; decide
  have hFI : s.FI = t.FI := h.get State.FI
  have hagree : channelsAgree channels s = channelsAgree channels t := by
    rw [Bool.eq_iff_iff, channelsAgree_iff, channelsAgree_iff, ← hFI]
    by_cases hfirst : s.FI = 0
    · simp [hfirst]
    · rw [(h.frame hne fun _ => hfirst).channels]
  unfold execFhdr
  rw [← h.posFits, ← hagree]
  split_ifs
  · refine ⟨_, _, rfl, rfl, .inl ?_⟩
    have hcontrol : (fhdrLatched channels rate samples size s).control =
        (fhdrLatched channels rate samples size t).control := congrArg (State.consume · Config.FHDR_LEN) h.control
    refine agree_advance hcontrol h.host h.fields h.status h.busy (by exact hph ▸ by decide) (h.header hne)
      ⟨rfl, rfl, rfl, rfl⟩ fun c hc => ?_
    have hphase : (fhdrLatched channels rate samples size s).PH = .fhdr := hph
    obtain ⟨hlms, -⟩ | ⟨hslc, -⟩ := hc
    · cases hphase.symm.trans hlms
    · cases hphase.symm.trans hslc
  · exact h.raise _ _
  · exact h.raise _ 0

/-- Writing the same registers to channel `CI` of both makes channel `CI` agree, and leaves the others. -/
theorem set_agree {c ci ci' : Fin NCH_MAX} {u v : Vector Taps NCH_MAX} (hci : ci = ci') (x : Taps)
    (h : c ≠ ci → u[c] = v[c]) : (u.set ci x)[c] = (v.set ci' x)[c] := by
  subst hci
  by_cases hc : c = ci
  · subst hc; simp
  · have hval : ci.val ≠ c.val := fun heq => hc (Fin.ext heq.symm)
    simpa [Vector.getElem_set_ne _ _ hval] using h hc

/-- LMS loads the registers of channel `CI`. -/
theorem execLms_alike (h : Agree s t) (hph : s.PH = .lms) (history weights : Taps) :
    OutcomesAlike (execLms history weights s) (execLms history weights t) := by
  have hne : s.PH ≠ .chdr := by rw [hph]; decide
  have hCI : s.CI = t.CI := h.get State.CI
  unfold execLms
  rw [← h.posFits]
  split_ifs
  · refine ⟨_, _, rfl, rfl, .inl ?_⟩
    have hcontrol : ((s.consume Config.LMS_BYTES).setChannel history weights).control =
        ((t.consume Config.LMS_BYTES).setChannel history weights).control :=
      congrArg (State.consume · Config.LMS_BYTES) h.control
    refine agree_advance hcontrol h.host h.fields h.status h.busy (by exact hph ▸ by decide) (h.header hne)
      { h.frame hne (by simp [hph]) with } fun c hc => ?_
    have hothers : c ≠ s.CI → s.H[c] = t.H[c] ∧ s.W[c] = t.W[c] := by
      intro hother
      refine h.registers c ?_
      obtain ⟨-, hle⟩ | hslc := hc
      · exact .inl ⟨hph, lt_of_le_of_ne hle hother⟩
      · exact .inr hslc
    exact ⟨set_agree hCI history fun hother => (hothers hother).1,
      set_agree hCI weights fun hother => (hothers hother).2⟩
  · exact h.raise _ 0

/-- The samples of a slice depend on the scale factor and channel `CI`'s registers alone (rules R180, R187). -/
theorem foldl_sampleStep_shared (qs : List (BitVec 3)) (hSF : s.SF = t.SF) (hH : s.history = t.history)
    (hW : s.weights = t.weights) : ∃ h w xs po wo,
      qs.foldl (fun u q => sampleStep q u) s = s.withSamples h w xs po wo ∧
      qs.foldl (fun u q => sampleStep q u) t = t.withSamples h w xs po wo := by
  induction qs generalizing s t with
  | nil =>
    refine ⟨s.history, s.weights, [], false, false, s.withSamples_nil.symm, ?_⟩
    rw [hH, hW, t.withSamples_nil]; rfl
  | cons q qs ih =>
    obtain ⟨h₁, w₁, x, po₁, wo₁, hs, ht⟩ : ∃ h w x po wo, sampleStep q s = s.withSamples h w [x] po wo ∧
        sampleStep q t = t.withSamples h w [x] po wo := by
      refine ⟨_, _, _, _, _, sampleStep_eq q s, ?_⟩
      have hH' : s.H[s.CI] = t.H[t.CI] := hH
      have hW' : s.W[s.CI] = t.W[t.CI] := hW
      rw [hSF, hH', hW']
      exact sampleStep_eq q t
    obtain ⟨h, w, xs, po, wo, hs', ht'⟩ := ih (s := s.withSamples h₁ w₁ [x] po₁ wo₁)
      (t := t.withSamples h₁ w₁ [x] po₁ wo₁) hSF (by simp) (by simp)
    refine ⟨h, w, x :: xs, po₁ || po, wo₁ || wo, ?_, ?_⟩
    · rw [List.foldl_cons, hs, hs', State.withSamples_withSamples, List.singleton_append]
    · rw [List.foldl_cons, ht, ht', State.withSamples_withSamples, List.singleton_append]

/-- Samples of channel `CI` and the end of the slice, before the sequencer advances. -/
def State.sliced (s : State) (h w : Taps) (xs : List S16) (po wo : Bool) : State :=
  { (s.consume Config.SLC_LEN).withSamples h w xs po wo with SF := 0, PEND := [] }

/-- Two decodes that run a slice on the same registers leave the same samples. -/
theorem endSlice_shared (sfi : BitVec 4) (codes : List (BitVec 3)) (hgroup : s.groupLen = t.groupLen)
    (hH : s.history = t.history) (hW : s.weights = t.weights) : ∃ h w xs po wo,
      endSlice (afterFields sfi codes s) = advance (s.sliced h w xs po wo) ∧
      endSlice (afterFields sfi codes t) = advance (t.sliced h w xs po wo) := by
  obtain ⟨h, w, xs, po, wo, hs, ht⟩ := foldl_sampleStep_shared (codes.take s.groupLen)
    (s := latchScale sfi (s.consume Config.SLC_LEN)) (t := latchScale sfi (t.consume Config.SLC_LEN)) rfl hH hW
  refine ⟨h, w, xs, po, wo, ?_, ?_⟩
  · rw [afterFields, hs]; rfl
  · rw [afterFields, ← hgroup, ht]; rfl

theorem Agree.groupLen (h : Agree s t) (hfsamples : s.FSAMPLES = t.FSAMPLES) : s.groupLen = t.groupLen := by
  have hmode : s.CFG.TAIL_MODE = t.CFG.TAIL_MODE := h.get (State.CFG · |>.TAIL_MODE)
  have hSI : s.SI = t.SI := h.get State.SI
  rw [State.groupLen, hmode, hfsamples, hSI, State.groupLen]

/-- SLC runs on registers both have loaded: channel `CI` is in use where the buffers are balanced. -/
theorem execSlc_alike (h : Agree s t) (hph : s.PH = .slc) (hci : s.CI.val < s.CHANNELS.toNat) (sfi : BitVec 4)
    (codes : List (BitVec 3)) : OutcomesAlike (execSlc sfi codes s) (execSlc sfi codes t) := by
  have hne : s.PH ≠ .chdr := by rw [hph]; decide
  have hCI : s.CI = t.CI := h.get State.CI
  have hframe := h.frame hne (by simp [hph])
  have hgroup : s.groupLen = t.groupLen := h.groupLen hframe.samples
  have hcap : ∀ n, s.samplesFit n = t.samplesFit n := fun n => h.get (State.samplesFit · n)
  obtain ⟨hH, hW⟩ := h.registers s.CI (.inr ⟨hph, hci⟩)
  obtain ⟨hpos, hsamples, hexec⟩ | ⟨hfull, hexec⟩ := execSlc_cases sfi codes s <;>
    obtain ⟨hpos', hsamples', hexec'⟩ | ⟨hfull', hexec'⟩ := execSlc_cases sfi codes t <;> rw [hexec, hexec']
  · obtain ⟨h', w, xs, po, wo, hs, ht⟩ := endSlice_shared (s := s) (t := t) sfi codes hgroup
      (hH.trans (by rw [hCI]; rfl)) (hW.trans (by rw [hCI]; rfl))
    refine ⟨_, _, rfl, rfl, .inl ?_⟩
    rw [hs, ht]
    have hcontrol : (s.sliced h' w xs po wo).control = (t.sliced h' w xs po wo).control :=
      h.get (fun c => (c.sliced h' w xs po wo).control)
    refine agree_advance hcontrol h.host rfl h.status h.busy (by exact hph ▸ by decide) (h.header hne)
      { hframe with } fun c hc => ?_
    obtain ⟨hHc, hWc⟩ := h.registers c (hc.imp (fun hlms => by cases hph.symm.trans hlms.1) id)
    exact ⟨set_agree hCI h' fun _ => hHc, set_agree hCI w fun _ => hWc⟩
  · rw [← h.posFits, ← hcap, ← hgroup, hpos, hsamples] at hfull'
    simp at hfull'
  · rw [h.posFits, hcap, hgroup, hpos', hsamples'] at hfull
    simp at hfull
  · exact h.raise _ 0

/-- ASM publishes the shared buffers with the shared metadata. -/
theorem execAsm_alike (h : Agree s t) (hph : s.PH = .asm) : OutcomesAlike (execAsm s) (execAsm t) := by
  have hne : s.PH ≠ .chdr := by rw [hph]; decide
  have hph' : t.PH = .asm := h.phase ▸ hph
  obtain ⟨hchannels, hrate, -⟩ := h.frame hne (by simp [hph])
  obtain ⟨htotal, -⟩ := h.header hne
  have hbufs : s.buffers = t.buffers := by
    have hCHBUF : s.CHBUF = t.CHBUF := h.get State.CHBUF
    rw [State.buffers, hCHBUF, hchannels, State.buffers]
  by_cases hagree : lengthsAgree s.buffers = true
  · refine ⟨_, _, exec_asm_of_lengthsAgree hph hagree, exec_asm_of_lengthsAgree hph' (hbufs ▸ hagree), .inr ?_⟩
    refine ⟨assembled_settled h.host h.fields, assembled_settled h.host_right h.fields_right, ?_⟩
    obtain ⟨hpovf, hwovf⟩ := h.flags
    simp only [State.result, hbufs, hchannels, hrate, htotal, hpovf, hwovf]
  · unfold execAsm
    simp only [← hbufs, hagree]
    exact h.raise _ 0

end Units

section Steps

variable {s t : State}

/-- Where the unit's bytes are there, the sequencer executes what they decode to. -/
theorem sequencerStep_of_unitBytes {bs : List Byte} (hp : s.PEND = []) (hbytes : unitBytes s = some bs) :
    ∃ i, decode (.stream s.PH bs) = .ok i ∧ sequencerStep s = exec i s := by
  rw [unitBytes, Option.bind_eq_some_iff] at hbytes
  obtain ⟨n, hu, hread⟩ := hbytes
  obtain ⟨hlen, hat⟩ := Memory.readRange_eq_some.mp hread
  obtain ⟨i, hi⟩ := decodeStream_ok hu hlen
  exact ⟨i, hi, sequencerStep_unit hp (hlen ▸ hu) hat hi⟩

/-- Where they are not, it fails after the end of the stream and waits before (rules R61, R62). -/
theorem sequencerStep_of_noUnit (hp : s.PEND = []) (hne : s.PH ≠ .asm) (hbytes : unitBytes s = none) :
    sequencerStep s = .next (noFetch s) := by
  have hfetch : fetch s = none := by simp only [fetch, hp, if_neg hne, hbytes, Option.map_none]
  simp only [sequencerStep, hfetch]

theorem noFetch_eq_raise (heos : s.EOS = true) (hbusy : statusOf s.PH = .busy) (hne : s.PH ≠ .asm)
    (hbytes : unitBytes s = none) : noFetch s = raise (shortReadError s.PH) s := by
  have hshort : shortRead s = true := by
    simp [shortRead, (unitLength_isSome_iff hne).mpr hbusy, hbytes, heos]
  rw [noFetch, if_pos hshort]

/-- A step of two decodes that are given the same unit, or both none of it. -/
theorem sequencerStep_alike (h : Agree s t) (hbal : s.Balanced) (heos : s.EOS = true)
    (hbytes : unitBytes s = unitBytes t) : OutcomesAlike (sequencerStep s) (sequencerStep t) := by
  by_cases hasm : s.PH = .asm
  · rw [sequencerStep_asm h.fields hasm, sequencerStep_asm h.fields_right (h.phase ▸ hasm)]
    exact execAsm_alike h hasm
  cases hs : unitBytes s with
  | none =>
    have ht := hbytes.symm.trans hs
    have heos' : t.EOS = true := (h.get State.EOS).symm.trans heos
    rw [sequencerStep_of_noUnit h.fields hasm hs, noFetch_eq_raise heos h.busy hasm hs,
      sequencerStep_of_noUnit h.fields_right (h.phase ▸ hasm) ht,
      noFetch_eq_raise heos' (h.phase ▸ h.busy) (h.phase ▸ hasm) ht, ← h.phase]
    exact h.raise _ 0
  | some bs =>
    obtain ⟨i, hi, hstep⟩ := sequencerStep_of_unitBytes h.fields hs
    obtain ⟨j, hj, hstep'⟩ := sequencerStep_of_unitBytes h.fields_right (hbytes.symm.trans hs)
    rw [← h.phase, hi] at hj
    cases hj
    rw [hstep, hstep']
    obtain ⟨hph, -, rfl⟩ | ⟨hph, -, rfl⟩ | ⟨hph, -, rfl⟩ | ⟨hph, -, rfl⟩ := decode_stream_eq_ok hi
    · exact execChdr_alike h hph _ _
    · exact execFhdr_alike h hph _ _ _ _
    · exact execLms_alike h hph _ _
    · exact execSlc_alike h hph ((balanced_slc hph).mp hbal).1 _ _

/-- The same as steps of the machine. -/
theorem step_alike (h : Agree s t) (hbal : s.Balanced) (heos : s.EOS = true) (hbytes : unitBytes s = unitBytes t) :
    ∃ s' t', step s = .next s' ∧ step t = .next t' ∧ SequencerEffect s s' ∧ SequencerEffect t t' ∧ Alike s' t' := by
  obtain ⟨s', t', hs, ht, halike⟩ := sequencerStep_alike h hbal heos hbytes
  exact ⟨s', t', (step_nil h.host).trans hs, (step_nil h.host_right).trans ht, effect_of_sequencerStep hs,
    effect_of_sequencerStep ht, halike⟩

end Steps

end Machine
end Sys2Proof
end

section
/-! Whole decodes, from the host's START on (rules R101, R210, R214, R216, R222, R223, R261). -/

namespace Sys2Proof
namespace Machine

section Script

variable {s t : State}

/-- Where a decode of a stream stands when the host has made its three moves. -/
def State.fed (s : State) (stream : List Byte) : State :=
  { startDecode s with HOST := [], IN := Memory.offer [] stream, EOS := true }

/-- After START, with the stream still to be offered. -/
def State.started (s : State) (stream : List Byte) : State := { startDecode s with HOST := [.offer stream, .endStream] }

/-- After the offer, with the end of the stream still to be signalled. -/
def State.offered (s : State) (stream : List Byte) : State :=
  { startDecode s with HOST := [.endStream], IN := Memory.offer [] stream }

theorem step_script_start (stream : List Byte) (hidle : s.STATUS ≠ .busy) :
    step { s with HOST := decodeScript stream } = .next (s.started stream) := by
  rw [step_writeCmd_start (s := { s with HOST := decodeScript stream }) rfl]
  exact exec_start_of_notBusy hidle

theorem step_script_offer (s : State) (stream : List Byte) : step (s.started stream) = .next (s.offered stream) :=
  step_offer rfl rfl

theorem step_script_end (s : State) (stream : List Byte) : step (s.offered stream) = .next (s.fed stream) := rfl

theorem resultAfter_succ (h : step s = .next t) (k : Nat) : resultAfter (k + 1) s = resultAfter k t := by
  rw [resultAfter, run_succ h, resultAfter]

theorem resultAfter_eq_some {k : Nat} {r : Result} :
    resultAfter k s = some r ↔ ∃ t : State, Host.Core.run Sys2Proof.core k s = .next t ∧ t.result = r := by
  unfold resultAfter
  split
  case h_1 t ht =>
    constructor
    · intro h; exact ⟨t, ht, Option.some.inj h⟩
    · rintro ⟨u, hu, rfl⟩; cases ht.symm.trans hu; rfl
  case h_2 f hf => exact ⟨fun h => (nomatch h), fun ⟨_, hu, _⟩ => (nomatch hf.symm.trans hu)⟩
  case h_3 f hf => exact ⟨fun h => (nomatch h), fun ⟨_, hu, _⟩ => (nomatch hf.symm.trans hu)⟩

theorem status_of_result_done {pcm : List S16} {outlen : Nat} {rate : BitVec 32} {channels : BitVec 8}
    {total : BitVec 32} {povf wovf : Bool} (h : s.result = .done pcm outlen rate channels total povf wovf) :
    s.STATUS = .done := by
  unfold State.result at h
  split at h
  · cases h
  · cases h
  · cases h
  · assumption

/-- The result of a decode after START: running until the host has ended the stream, then that of the fed block. -/
theorem resultAfter_script (stream : List Byte) (hidle : s.STATUS ≠ .busy) (k : Nat) :
    resultAfter (k + 1) { s with HOST := decodeScript stream } =
      if k < 2 then some .running else resultAfter (k - 2) (s.fed stream) := by
  rw [resultAfter_succ (step_script_start stream hidle)]
  match k with
  | 0 => rfl
  | 1 => rw [resultAfter_succ (step_script_offer s stream)]; rfl
  | k + 2 =>
    rw [resultAfter_succ (step_script_offer s stream), resultAfter_succ (step_script_end s stream), if_neg (by omega)]
    rfl

/-- A run that has used up the script has fed the block. -/
theorem run_fed_of_script {stream : List Byte} (hidle : s.STATUS ≠ .busy) {k : Nat}
    (hrun : Host.Core.run Sys2Proof.core k { s with HOST := decodeScript stream } = .next t) (hhost : t.HOST = []) :
    ∃ j, Host.Core.run Sys2Proof.core j (s.fed stream) = .next t := by
  match k with
  | 0 => cases hrun; cases hhost
  | 1 => rw [run_succ (step_script_start stream hidle)] at hrun; cases hrun; cases hhost
  | 2 =>
    rw [run_succ (step_script_start stream hidle), run_succ (step_script_offer s stream)] at hrun
    cases hrun; cases hhost
  | k + 3 =>
    rw [run_succ (step_script_start stream hidle), run_succ (step_script_offer s stream),
      run_succ (step_script_end s stream)] at hrun
    exact ⟨k, hrun⟩

/-- START fixes the control state: decodes from any two states begin alike (rules R43, R210). -/
theorem agree_fed (hcfg : s.CFG = t.CFG) (hp : s.PEND = []) (hp' : t.PEND = []) (a b : List Byte) :
    Agree (s.fed a) (t.fed b) where
  control := by simp [State.control, State.fed, hcfg, hp, hp']
  host := rfl
  fields := hp
  status := rfl
  busy := rfl
  header hne := absurd rfl hne
  frame hne := absurd rfl hne
  registers c hc := by simp [State.Loaded, State.fed] at hc

theorem fed_balanced (s : State) (stream : List Byte) : (s.fed stream).Balanced :=
  (balanced_of_noSamples (.inr (.inl rfl))).mpr fun c => by simp [State.fed]

end Script

section Runs

variable {s t : State}

/-- What a run needs of the first of two decodes beside its agreement with the second. -/
structure State.Ready (s : State) : Prop where
  balanced : s.Balanced
  ended : s.EOS = true

theorem fed_ready (s : State) (stream : List Byte) : (s.fed stream).Ready := ⟨fed_balanced s stream, rfl⟩

theorem State.Ready.next (h : s.Ready) (hp : s.PEND = []) (heffect : SequencerEffect s t) : t.Ready :=
  ⟨heffect.balanced hp h.balanced, heffect.inputs.ended.trans h.ended⟩

/-- Two decodes of one stream run alike. -/
theorem run_alike (k : Nat) {s t : State} (h : Agree s t) (hready : s.Ready) (hin : s.IN = t.IN) :
    ∃ s' t', Host.Core.run Sys2Proof.core k s = .next s' ∧ Host.Core.run Sys2Proof.core k t = .next t' ∧ Alike s' t' := by
  induction k generalizing s t with
  | zero => exact ⟨s, t, rfl, rfl, .inl h⟩
  | succ k ih =>
    have hbytes : unitBytes s = unitBytes t := by
      have hpos : s.POS = t.POS := h.get State.POS
      have hread : s.readBytes = t.readBytes := by
        funext n
        rw [State.readBytes, hin, hpos, State.readBytes]
      rw [unitBytes, h.phase, hread, unitBytes]
    obtain ⟨s₁, t₁, hs, ht, heffect, heffect', hagree | hended⟩ := step_alike h hready.balanced hready.ended hbytes
    · have hin₁ : s₁.IN = t₁.IN := by rw [heffect.inputs.stream, heffect'.inputs.stream, hin]
      obtain ⟨s', t', hs', ht', halike⟩ := ih hagree (hready.next h.fields heffect) hin₁
      exact ⟨s', t', (run_succ hs k).trans hs', (run_succ ht k).trans ht', halike⟩
    · exact ⟨s₁, t₁, (run_succ hs k).trans (hended.left.run k), (run_succ ht k).trans (hended.right.run k), .inr hended⟩

/-- Every byte of the one stream stands in the other, at its offset. -/
def Extends (m m' : Memory) : Prop := ∀ a b, m.read a = some b → m'.read a = some b

theorem extends_offer_append (a b : List Byte) : Extends (Memory.offer [] a) (Memory.offer [] (a ++ b)) := by
  have hwf : (Memory.offer [] a).wf = true := Memory.wf_offer Memory.wf_nil a
  intro i x hx
  have hlt : i < (Memory.offer [] a).length := by
    rw [Memory.read_eq hwf, Option.map_eq_some_iff] at hx
    obtain ⟨y, hy, -⟩ := hx
    exact (List.getElem?_eq_some_iff.mp hy).1
  rw [Memory.offer_append, read_offer_of_lt hwf b hlt, hx]

/-- A unit that is there is the same unit in a stream with more bytes. -/
theorem unitBytes_of_extends (hext : Extends s.IN t.IN) (hph : s.PH = t.PH) (hpos : s.POS = t.POS) {bs : List Byte}
    (h : unitBytes s = some bs) : unitBytes t = some bs := by
  rw [unitBytes, Option.bind_eq_some_iff] at h ⊢
  obtain ⟨n, hu, hread⟩ := h
  obtain ⟨hlen, hat⟩ := Memory.readRange_eq_some.mp hread
  refine ⟨n, hph ▸ hu, Memory.readRange_eq_some.mpr ⟨hlen, fun k hk => ?_⟩⟩
  have hbyte := hat k hk
  rw [List.getElem?_eq_getElem hk] at hbyte ⊢
  rw [← hpos]
  exact hext _ _ hbyte

theorem unitBytes_asm (hph : s.PH = .asm) : unitBytes s = none := by
  rw [unitBytes, hph]; rfl

/-- A decode that reads past the end of an ended stream fails for good. -/
theorem step_noUnit (hhost : s.HOST = []) (hp : s.PEND = []) (heos : s.EOS = true) (hbusy : statusOf s.PH = .busy)
    (hne : s.PH ≠ .asm) (hbytes : unitBytes s = none) : step s = .next (raise (shortReadError s.PH) s) := by
  rw [step_nil hhost, sequencerStep_of_noUnit hp hne hbytes, noFetch_eq_raise heos hbusy hne hbytes]

/-- The second decode is given the first one's bytes and more: while the first does not run short, they run alike. -/
theorem run_of_extends (k : Nat) {s t s' : State} (h : Agree s t) (hready : s.Ready) (hext : Extends s.IN t.IN)
    (hrun : Host.Core.run Sys2Proof.core k s = .next s') (hdone : s'.STATUS = .done) :
    ∃ t', Host.Core.run Sys2Proof.core k t = .next t' ∧ s'.result = t'.result := by
  induction k generalizing s t with
  | zero => cases hrun; cases h.status.symm.trans hdone
  | succ k ih =>
    by_cases hshort : s.PH ≠ .asm ∧ unitBytes s = none
    · have hstep := step_noUnit h.host h.fields hready.ended h.busy hshort.1 hshort.2
      rw [run_succ hstep, (raise_settled _ h.host).run] at hrun
      cases hrun; cases hdone
    have hbytes : unitBytes s = unitBytes t := by
      by_cases hasm : s.PH = .asm
      · rw [unitBytes_asm hasm, unitBytes_asm (h.phase ▸ hasm)]
      · obtain ⟨bs, hbs⟩ := Option.ne_none_iff_exists'.mp fun hnone => hshort ⟨hasm, hnone⟩
        rw [hbs, unitBytes_of_extends hext h.phase (h.get State.POS) hbs]
    obtain ⟨s₁, t₁, hs, ht, heffect, heffect', hagree | hended⟩ := step_alike h hready.balanced hready.ended hbytes <;>
      rw [run_succ hs] at hrun
    · have hext₁ : Extends s₁.IN t₁.IN := by rw [heffect.inputs.stream, heffect'.inputs.stream]; exact hext
      obtain ⟨t', ht', hresult⟩ := ih hagree (hready.next h.fields heffect) hext₁ hrun
      exact ⟨t', (run_succ ht k).trans ht', hresult⟩
    · rw [hended.left.run] at hrun
      cases hrun
      exact ⟨t₁, (run_succ ht k).trans (hended.right.run k), hended.result⟩

end Runs

/-- Settles O50: fed with one stream, the two decodes agree from START on. -/
theorem decodesAreIndependentOfThePast : Obligations.DecodesAreIndependentOfThePast := by
  intro s t stream k hcfg hidle hidle' hp hp' hs ht
  have hscript : ∀ u : State, u.HOST = decodeScript stream → u = { u with HOST := decodeScript stream } := by
    rintro u hu; rw [← hu]
  rw [hscript s hs, hscript t ht, resultAfter_script stream hidle, resultAfter_script stream hidle']
  obtain ⟨s', t', hs', ht', halike⟩ := run_alike (k - 2) (agree_fed hcfg hp hp' stream stream) (fed_ready s stream) rfl
  simp only [resultAfter, hs', ht', halike.result_eq]

/-- Settles O51: the longer stream has the bytes of the shorter at their offsets. -/
theorem trailingBytesAreIgnored : Obligations.TrailingBytesAreIgnored := by
  intro s stream extra k pcm outlen rate channels total povf wovf hidle hp hresult
  rw [resultAfter_script stream hidle] at hresult
  rw [resultAfter_script (stream ++ extra) hidle]
  split_ifs at hresult ⊢ with hk
  · cases hresult
  · obtain ⟨s', hrun, hdone⟩ := resultAfter_eq_some.mp hresult
    obtain ⟨t', hrun', hsame⟩ := run_of_extends (k - 2) (agree_fed rfl hp hp stream (stream ++ extra))
      (fed_ready s stream) (extends_offer_append stream extra) hrun (status_of_result_done hdone)
    exact resultAfter_eq_some.mpr ⟨t', hrun', hsame.symm.trans hdone⟩

section CutShort

variable {s t : State}

/-- The code a decode of a stream of `m` bytes fails with when its bytes run out (rules R222, R223). -/
def shortCode (m : Nat) : ErrCode := if m < 8 then .malformedContainer else .truncatedStream

/-- A decode of a stream at one of its units: at the container header nothing is consumed, later a whole header is. -/
structure State.AtUnitStart (s : State) : Prop where
  wf : s.IN.wf = true
  within : s.POS ≤ s.IN.length
  header : s.PH = .chdr → s.POS = 0
  later : s.PH ≠ .chdr → 8 ≤ s.IN.length

theorem fed_atUnitStart (s : State) (stream : List Byte) : (s.fed stream).AtUnitStart where
  wf := Memory.wf_offer Memory.wf_nil stream
  within := Nat.zero_le _
  header _ := rfl
  later hne := absurd rfl hne

/-- A completed unit lies within the stream and has at least eight bytes, so the header does too. -/
theorem State.AtUnitStart.next (h : s.AtUnitStart) (heffect : SequencerEffect s t) (hdone : UnitDone s t) :
    t.AtUnitStart := by
  obtain ⟨-, hin, -⟩ := heffect.inputs
  obtain ⟨n, hu, hfits, hpos⟩ := hdone.consumed
  have hlen := eight_le_unitLength hu
  exact ⟨hin ▸ h.wf, by rw [hin, hpos]; exact hfits, fun hph => absurd hph hdone.later, fun _ => by rw [hin]; omega⟩

/-- The code of a short read is that of the stream's length. -/
theorem State.AtUnitStart.shortReadError_eq (h : s.AtUnitStart) (hbytes : unitBytes s = none) :
    shortReadError s.PH = shortCode s.IN.length := by
  by_cases hph : s.PH = .chdr
  · have hshort : s.IN.length < 8 := by
      by_contra hlong
      rw [unitBytes, hph] at hbytes
      have hread := (Memory.readRange_isSome h.wf s.POS 8 (by omega)).mpr (by rw [h.header hph]; omega)
      rw [show s.IN.readRange s.POS 8 = none from hbytes] at hread
      cases hread
    rw [shortReadError, if_pos hph, shortCode, if_pos hshort]
  · have hlong : ¬ s.IN.length < 8 := Nat.not_lt.mpr (h.later hph)
    rw [shortReadError, if_neg hph, shortCode, if_neg hlong]

/-- The second decode is given the first one's stream cut short. Where the first publishes past the cut, the second runs
short on the way: until then they agree, and at the first's end `POS` would lie before the cut. -/
theorem run_of_cutShort (k : Nat) {s t s' : State} (h : Agree s t) (hready : s.Ready) (hwf : s.IN.wf = true)
    (hext : Extends t.IN s.IN) (hstart : t.AtUnitStart) (hrun : Host.Core.run Sys2Proof.core k s = .next s')
    (hdone : s'.STATUS = .done) (hpast : t.IN.length < s'.POS) :
    ∃ j t', Host.Core.run Sys2Proof.core j t = .next t' ∧ t'.STATUS = .failed ∧ t'.ERR = shortCode t.IN.length := by
  induction k generalizing s t with
  | zero => cases hrun; cases h.status.symm.trans hdone
  | succ k ih =>
    have heos' : t.EOS = true := (h.get State.EOS).symm.trans hready.ended
    have hpos : s.POS = t.POS := h.get State.POS
    have hbusy' : statusOf t.PH = .busy := h.phase ▸ h.busy
    by_cases hshort : t.PH ≠ .asm ∧ unitBytes t = none
    · have hstep := step_noUnit h.host_right h.fields_right heos' hbusy' hshort.1 hshort.2
      exact ⟨1, _, run_succ hstep 0, rfl, hstart.shortReadError_eq hshort.2⟩
    have hbytes : unitBytes s = unitBytes t := by
      by_cases hasm : t.PH = .asm
      · rw [unitBytes_asm hasm, unitBytes_asm (h.phase.trans hasm)]
      · obtain ⟨bs, hbs⟩ := Option.ne_none_iff_exists'.mp fun hnone => hshort ⟨hasm, hnone⟩
        rw [hbs, unitBytes_of_extends hext h.phase.symm hpos.symm hbs]
    obtain ⟨s₁, t₁, hs, ht, heffect, heffect', hagree | hended⟩ := step_alike h hready.balanced hready.ended hbytes <;>
      rw [run_succ hs] at hrun
    · obtain ⟨-, hin, -⟩ := heffect.inputs
      obtain ⟨-, hin', -⟩ := heffect'.inputs
      have hunit : UnitDone t t₁ := by
        obtain ⟨-, rfl⟩ | ⟨x, n, rfl⟩ | hunit := heffect'.progress h.fields_right hstart.wf heos' hbusy'
        · cases hagree.phase ▸ hagree.busy
        · cases hagree.phase ▸ hagree.busy
        · exact hunit
      obtain ⟨j, t', ht', hfailed, hcode⟩ := ih hagree (hready.next h.fields heffect) (hin ▸ hwf)
        (by rw [hin, hin']; exact hext) (hstart.next heffect' hunit) hrun (by rw [hin']; exact hpast)
      exact ⟨j + 1, t', (run_succ ht j).trans ht', hfailed, hin' ▸ hcode⟩
    · rw [hended.left.run] at hrun
      cases hrun
      obtain ⟨-, rfl⟩ | ⟨x, n, rfl⟩ | hunit := heffect.progress h.fields hwf hready.ended h.busy
      · exact absurd hpast (Nat.not_lt.mpr (hpos ▸ hstart.within))
      · cases hdone
      · exact absurd hunit.busy hended.left.notBusy

end CutShort

/-- Settles O52: a stream cut short lacks bytes the whole decode consumes, and the decode it is given to runs short. -/
theorem everyProperPrefixFails : Obligations.EveryProperPrefixFails := by
  intro s t stream k m hidle hp hrun hdone hhost hpos hm
  obtain ⟨j, hfed⟩ := run_fed_of_script hidle hrun hhost
  have hext : Extends (s.fed (stream.take m)).IN (s.fed stream).IN := by
    have h := extends_offer_append (stream.take m) (stream.drop m)
    rwa [List.take_append_drop] at h
  have hlen : (s.fed (stream.take m)).IN.length = m := by
    simp only [State.fed, Memory.offer_length, List.length_nil, List.length_take]
    omega
  have hpast : (s.fed (stream.take m)).IN.length < t.POS := by rw [hlen, hpos]; exact hm
  obtain ⟨i, t', ht', hfailed, hcode⟩ := run_of_cutShort j (agree_fed rfl hp hp stream (stream.take m))
    (fed_ready s stream) (Memory.wf_offer Memory.wf_nil stream) hext (fed_atUnitStart s (stream.take m)) hfed hdone hpast
  refine ⟨i + 3, t'.POVF, t'.WOVF, ?_⟩
  rw [resultAfter_script _ hidle (i + 2), if_neg (by omega), Nat.add_sub_cancel]
  refine resultAfter_eq_some.mpr ⟨t', ht', ?_⟩
  rw [hlen] at hcode
  simp only [State.result, hfailed, hcode, shortCode]

end Machine
end Sys2Proof
end
